-- ==== Sys2Proof/Word.lean ====
section
/-! DEFINITION. The unsigned fixed-width integers of rule R9 (00_scope.md) and byte strings (rule R10). -/

namespace Sys2Proof

/-- `u8`. -/
abbrev Byte := BitVec 8

/-- `u16`. -/
abbrev Half := BitVec 16

/-- `u32`: a register of the radio block or the command word. -/
abbrev Word := BitVec 32

/-- `u64`: an extended address. -/
abbrev Dword := BitVec 64

/-- A byte string in transmission order, first byte first (rules R8, R10). -/
abbrev Bytes := List Byte

end Sys2Proof
end

