-- ==== Sys2Proof/Config.lean ====
section
/-! DEFINITION. The parameters of rule R7 (00_scope.md), each under a name of its own, and the free values: what the
spec leaves open is an opaque constant with no body, so that nothing can be proved of its value. -/

namespace Sys2Proof

/-- How the radio answers TXEN in RxIdle and RXEN in TxIdle: the values of `P_CROSS_IDLE` (rule R7). -/
inductive CrossIdle where
  | accept
  | ignore
  | either
  deriving DecidableEq, Repr

/-- `P_BUF_CAP` (rule R7): bytes in the packet buffer. -/
def Config.bufCap : Nat := 256

/-- `P_MAXLEN` (rule R7): maximum packet length, also the bound of an on-air length. -/
def Config.maxLen : Nat := 255

/-- `P_FREQ_MIN` (rule R7), in MHz. -/
def Config.freqMin : Nat := 2360

/-- `P_FREQ_MAX` (rule R7), in MHz. -/
def Config.freqMax : Nat := 2500

/-- `P_FREQ_BASE_HI` (rule R7), in MHz. -/
def Config.freqBaseHi : Nat := 2400

/-- `P_FREQ_BASE_LO` (rule R7), in MHz. -/
def Config.freqBaseLo : Nat := 2360

/-- `P_ACK_ATTEMPTS` (rule R7). -/
def Config.ackAttempts : Nat := 30

/-- `P_ASSOC_SEQ` (rule R7): 43. -/
def Config.assocSeq : Byte := 0x2b

/-- `P_DATAREQ_SEQ` (rule R7): 44. -/
def Config.dataReqSeq : Byte := 0x2c

/-- `P_MIC_LEN` (rule R7), in bytes. -/
def Config.micLen : Nat := 4

/-- `P_BEACON_SEQ` (rule R7): 42. -/
def Config.beaconSeq : Byte := 0x2a

/-- `P_FCS_LEN` (rule R7): the bytes the radio appends. -/
def Config.fcsLen : Nat := 2

/-- `P_RX_TRIM` (rule R7): the trailing bytes of a received frame the decoder does not see. -/
def Config.rxTrim : Nat := 2

/-- `P_ASSOC_SRC_PAN` (rule R7). -/
def Config.assocSrcPan : Half := 0xffff

/-- `P_DATAREQ_PANID_COMPRESS` (rule R7). -/
def Config.dataReqCompress : Bool := false

/-- `P_ACCEPTED_FRAME_VERSIONS` (rule R7). -/
def Config.acceptedVersions : List (BitVec 2) := [0, 1, 2]

/-- `P_START_VISIBLE_ATOMIC` (rule R7; log 10): the default, `false`. -/
def Config.startVisibleAtomic : Bool := false

/-- `P_CROSS_IDLE` (rule R7; log 11): the default, `Either`. -/
def Config.crossIdle : CrossIdle := .either

/-- The width of a radio register in bits (rule R7). -/
def Config.regWidth : Nat := 32

/-- The width of a bus address in bits (rules R7, R61). -/
def Config.addrWidth : Nat := 32

/-- `P_RADIO_BASE` (rules R7, R61). -/
def Config.radioBase : Nat := 0x40001000

/-- `P_FICR_BASE` (rules R7, R61). -/
def Config.ficrBase : Nat := 0x10000000

/-- `P_DEVID_HI_OFF` (rules R7, R46). -/
def Config.devidHiOff : Nat := 0x064

/-- `P_DEVID_LO_OFF` (rules R7, R46). -/
def Config.devidLoOff : Nat := 0x060

/-- MODE's value for IEEE 802.15.4 operation (rule R40), part of the configuration duty of rule R168. -/
def Config.mode154 : Nat := 15

/-- PCNF0.LFLEN under the configuration duty of rule R168. -/
def Config.lflen154 : Nat := 8

/-- The upper 30 bits of `P_BUF_ADDR`, OPEN (D42; log 9). -/
opaque Config.bufAddrHigh : BitVec 30

/-- `P_BUF_ADDR` (rules R7, R65; log 9): any 32-bit address that is a multiple of 4. -/
def Config.bufAddr : Word := Config.bufAddrHigh ++ (0#2)

/-- The FICR identity word at `P_DEVID_HI_OFF`, a constant of the run (rule R46; log 8). -/
opaque Config.deviceIdHi : Word

/-- The FICR identity word at `P_DEVID_LO_OFF`, a constant of the run (rule R46; log 8). -/
opaque Config.deviceIdLo : Word

/-- The byte of the packet buffer at an index nothing has written since reset: any value (rule R52; log 4). -/
opaque Config.bufDraw : Nat → Byte

/-- The `n`-th free byte of a run: a byte the spec calls any value (rule R165; logs 12, 13). -/
opaque Config.freeByte : Nat → Byte

/-- The `n`-th free bit of a run (rule R35; log 15). -/
opaque Config.freeBit : Nat → Bool

/-- What a task register reads as after the `n`-th write of one: an unspecified value (rule R34; log 17). -/
opaque Config.taskRead : Nat → Word

end Sys2Proof
end

