-- ==== Sys2Proof/Syntax.lean ====
section
/-! DEFINITION. The host command set: one constructor per row of spec/opcode_table.json (rule R83). A constructor
carries the operands that stand in the command word (rule R82); the others are in the operand registers and in IN.
Frequencies and cursors are mathematical naturals (rule R9), bounded by WellFormed to their 16-bit field. -/

namespace Sys2Proof

/-- A host command (rule R83). -/
inductive Instr where
  /-- 0x01 CONSTRUCT (rule R133). -/
  | construct
  /-- 0x02 CONFIGURE, `frequencyMHz` (rule R136). -/
  | configure (frequencyMHz : Nat)
  /-- 0x03 TRANSMIT, `onAirLength` (rule R139). -/
  | transmit (onAirLength : Byte)
  /-- 0x04 RECEIVE (rule R140). -/
  | receive
  /-- 0x10 ENC_BEACON_REQ, `seq` (rule R175). -/
  | encBeaconReq (seq : Byte)
  /-- 0x11 ENC_ASSOC_REQ, `seq` (rule R176). -/
  | encAssocReq (seq : Byte)
  /-- 0x12 ENC_DATA_REQ, `seq` (rule R177). -/
  | encDataReq (seq : Byte)
  /-- 0x13 ENC_ACK, `seq` (rule R178). -/
  | encAck (seq : Byte)
  /-- 0x14 MAC_DECODE (rule R179). -/
  | macDecode
  /-- 0x20 BROADCAST_BEACON (rule R210). -/
  | broadcastBeacon
  /-- 0x21 RECEIVE_ONCE (rule R211). -/
  | receiveOnce
  /-- 0x22 WRITE_EXPECT_ACK, `seq` (rule R212). -/
  | writeExpectAck (seq : Byte)
  /-- 0x23 ASSOCIATE (rule R213). -/
  | associate
  /-- 0x30 NWK_PARSE_FCF, the frame-control word (rule R232). -/
  | nwkParseFcf (fcw : Half)
  /-- 0x31 NWK_PARSE_PACKET (rule R238). -/
  | nwkParsePacket
  /-- 0x32 NWK_PARSE_SECHDR, the start position in IN (rule R235). -/
  | nwkParseSechdr (start : Nat)
  deriving DecidableEq, Repr

end Sys2Proof
end

