-- ==== Sys2Proof/WellFormed.lean ====
section
/-! DEFINITION. Which commands exist: an operand that is a mathematical natural (rule R9) fits its field of the
command word (rule R82). Every other operand has its field's width by its type. -/

namespace Sys2Proof

/-- A natural fits `IMM16`, bits 31:16 of the command word (rule R82). -/
def fitsImm16 (n : Nat) : Bool := n < 65536

/-- Whether the command has a command word (rules R82, R83). -/
def Instr.wf : Instr → Bool
  | .construct => true
  | .configure f => fitsImm16 f
  | .transmit _ => true
  | .receive => true
  | .encBeaconReq _ => true
  | .encAssocReq _ => true
  | .encDataReq _ => true
  | .encAck _ => true
  | .macDecode => true
  | .broadcastBeacon => true
  | .receiveOnce => true
  | .writeExpectAck _ => true
  | .associate => true
  | .nwkParseFcf _ => true
  | .nwkParsePacket => true
  | .nwkParseSechdr p => fitsImm16 p

end Sys2Proof
end

