-- ==== Sys2Proof/Decode.lean ====
section
/-! DEFINITION. The format CMD32 (rule R82) and the opcode map (rule R83): the decoder, total on any word, and the
encoder. The command is one 32-bit register write (rule R80), so a word has no byte order of its own. -/

namespace Sys2Proof

/-- Why a command word is no command. -/
inductive Reject where
  /-- The opcode is not in the opcode map (rule R84). -/
  | illegalOpcode (opc : Byte)
  deriving DecidableEq, Repr

/-- What the decoder answers. -/
inductive Decoded where
  | command (i : Instr)
  | reject (r : Reject)
  deriving DecidableEq, Repr

/-- `OPC`, bits 7:0 (rule R82). -/
def opcField (w : Word) : Byte := w.extractLsb' 0 8

/-- `SEQ`, bits 15:8 (rule R82). -/
def seqField (w : Word) : Byte := w.extractLsb' 8 8

/-- `IMM16`, bits 31:16 (rule R82). -/
def imm16Field (w : Word) : Half := w.extractLsb' 16 16

/-- TRANSMIT's `onAirLength`, bits 23:16 (rules R82, R139). -/
def onAirField (w : Word) : Byte := w.extractLsb' 16 8

/-- The opcode map (rule R83); every other opcode is illegal (rule R84). Fields a command does not use are ignored
(rule R82). -/
def decode (w : Word) : Decoded :=
  match (opcField w).toNat with
  | 0x01 => .command .construct
  | 0x02 => .command (.configure (imm16Field w).toNat)
  | 0x03 => .command (.transmit (onAirField w))
  | 0x04 => .command .receive
  | 0x10 => .command (.encBeaconReq (seqField w))
  | 0x11 => .command (.encAssocReq (seqField w))
  | 0x12 => .command (.encDataReq (seqField w))
  | 0x13 => .command (.encAck (seqField w))
  | 0x14 => .command .macDecode
  | 0x20 => .command .broadcastBeacon
  | 0x21 => .command .receiveOnce
  | 0x22 => .command (.writeExpectAck (seqField w))
  | 0x23 => .command .associate
  | 0x30 => .command (.nwkParseFcf (imm16Field w))
  | 0x31 => .command .nwkParsePacket
  | 0x32 => .command (.nwkParseSechdr (imm16Field w).toNat)
  | _ => .reject (.illegalOpcode (opcField w))

/-- The command read from an instruction whose `nbits` low bits are `w`, the bits above them zero: one command
word. -/
def decodeTableWord (nbits w : Nat) : Option Instr :=
  match decode (BitVec.ofNat 32 (w % 2 ^ nbits)) with
  | .command i => some i
  | .reject _ => none

/-- The command word with the given `IMM16`, `SEQ` and `OPC` (rule R82). -/
def commandWord (imm : Half) (seq opc : Byte) : Word := imm ++ seq ++ opc

/-- The opcode of a command (rule R83). -/
def Instr.opcode : Instr → Byte
  | .construct => 0x01
  | .configure _ => 0x02
  | .transmit _ => 0x03
  | .receive => 0x04
  | .encBeaconReq _ => 0x10
  | .encAssocReq _ => 0x11
  | .encDataReq _ => 0x12
  | .encAck _ => 0x13
  | .macDecode => 0x14
  | .broadcastBeacon => 0x20
  | .receiveOnce => 0x21
  | .writeExpectAck _ => 0x22
  | .associate => 0x23
  | .nwkParseFcf _ => 0x30
  | .nwkParsePacket => 0x31
  | .nwkParseSechdr _ => 0x32

/-- The `SEQ` field of a command's word: zero where the command does not use it (rules R82, R83). -/
def Instr.seqOperand : Instr → Byte
  | .construct => 0
  | .configure _ => 0
  | .transmit _ => 0
  | .receive => 0
  | .encBeaconReq seq => seq
  | .encAssocReq seq => seq
  | .encDataReq seq => seq
  | .encAck seq => seq
  | .macDecode => 0
  | .broadcastBeacon => 0
  | .receiveOnce => 0
  | .writeExpectAck seq => seq
  | .associate => 0
  | .nwkParseFcf _ => 0
  | .nwkParsePacket => 0
  | .nwkParseSechdr _ => 0

/-- The `IMM16` field of a command's word: zero where the command does not use it (rules R82, R83). -/
def Instr.imm16Operand : Instr → Half
  | .construct => 0
  | .configure f => BitVec.ofNat 16 f
  | .transmit len => len.setWidth 16
  | .receive => 0
  | .encBeaconReq _ => 0
  | .encAssocReq _ => 0
  | .encDataReq _ => 0
  | .encAck _ => 0
  | .macDecode => 0
  | .broadcastBeacon => 0
  | .receiveOnce => 0
  | .writeExpectAck _ => 0
  | .associate => 0
  | .nwkParseFcf fcw => fcw
  | .nwkParsePacket => 0
  | .nwkParseSechdr p => BitVec.ofNat 16 p

/-- The command word of a well-formed command, its unused fields zero (rules R82, R83). -/
def encode (i : Instr) : Word := commandWord i.imm16Operand i.seqOperand i.opcode

end Sys2Proof
end

