-- ==== Sys2Proof/Machine/Bytes.lean ====
section
/-! DEFINITION. Byte order (rules R10, R63): the little-endian serialisers, and the readers the decoders use. A reader
takes a field off the front of the bytes left and answers `none` where rule R11's `need` fails, so that the cursor `p`
of the spec's pseudocode is the length of what has been taken (log 31). -/

namespace Sys2Proof.Machine

/-- `le16` (rule R10). -/
def le16 (v : Half) : Bytes := [v.extractLsb' 0 8, v.extractLsb' 8 8]

/-- `le32` (rule R10). -/
def le32 (v : Word) : Bytes := [v.extractLsb' 0 8, v.extractLsb' 8 8, v.extractLsb' 16 8, v.extractLsb' 24 8]

/-- `le64` (rule R10). -/
def le64 (v : Dword) : Bytes :=
  [v.extractLsb' 0 8, v.extractLsb' 8 8, v.extractLsb' 16 8, v.extractLsb' 24 8,
   v.extractLsb' 32 8, v.extractLsb' 40 8, v.extractLsb' 48 8, v.extractLsb' 56 8]

/-- `need(1)` and `B[p]` (rules R10, R11). -/
def takeU8 : Bytes → Option (Byte × Bytes)
  | a :: rest => some (a, rest)
  | [] => none

/-- `need(2)` and `LE16(B, p)` (rules R10, R11). -/
def takeU16 : Bytes → Option (Half × Bytes)
  | a :: b :: rest => some (b ++ a, rest)
  | _ => none

/-- `need(4)` and `LE32(B, p)` (rules R10, R11). -/
def takeU32 : Bytes → Option (Word × Bytes)
  | a :: b :: c :: d :: rest => some (d ++ c ++ b ++ a, rest)
  | _ => none

/-- `need(8)` and `LE64(B, p)` (rules R10, R11). -/
def takeU64 : Bytes → Option (Dword × Bytes)
  | a :: b :: c :: d :: e :: f :: g :: h :: rest => some (h ++ g ++ f ++ e ++ d ++ c ++ b ++ a, rest)
  | _ => none

/-- `need(n)` and `p <- p + n`: `n` bytes read and discarded (rule R11). -/
def skipBytes (n : Nat) (B : Bytes) : Option Bytes := if B.length < n then none else some (B.drop n)

/-- An optional field: read only where its flag is set (rules R112, R113). -/
def takeIf {α : Type} (present : Bool) (take : Bytes → Option (α × Bytes)) (B : Bytes) :
    Option (Option α × Bytes) :=
  if present then (take B).map fun r => (some r.1, r.2) else some (none, B)

end Sys2Proof.Machine
end

