-- ==== Sys2Proof/Machine/Frames.lean ====
section
/-! DEFINITION. The records the codecs build and read: the MAC frame (rule R170), the NWK frame control (rule R230),
the security header (rule R233) and the NWK packet (rule R236). -/

namespace Sys2Proof.Machine

/-- A MAC frame's type (rules R92, R170). -/
inductive FrameType where
  | beacon
  | data
  | ack
  | command
  deriving DecidableEq, Repr

/-- A MAC address field pair (rules R93, R170). -/
inductive Addr where
  | none
  | short (pan addr : Half)
  | extended (pan : Half) (addr : Dword)
  deriving DecidableEq, Repr

/-- Association status (rules R100, R170). -/
inductive AssocStatus where
  | successful
  | panAtCapacity
  | panAccessDenied
  deriving DecidableEq, Repr

/-- A MAC frame's content (rule R170). -/
inductive Content where
  | dataContent
  | beaconContent
  | ackContent
  | beaconRequest
  | associationRequest (capabilities : Byte)
  | associationResponse (shortAddress : Half) (status : AssocStatus)
  | dataRequest
  deriving DecidableEq, Repr

/-- A MAC frame (rule R170). It has no footer: the FCS is the radio's. -/
structure MacFrame where
  frameType : FrameType
  security : Bool
  framePending : Bool
  ackRequest : Bool
  panIdCompress : Bool
  frameVersion : BitVec 2
  seq : Byte
  dst : Addr
  src : Addr
  content : Content
  payload : Bytes
  deriving DecidableEq, Repr

/-- An NWK frame's type (rules R111, R230). -/
inductive NwkFrameType where
  | nwkData
  | nwkCommand
  | nwkReserved
  | interPan
  deriving DecidableEq, Repr

/-- The discover-route field (rules R111, R230). -/
inductive DiscoverRoute where
  | suppress
  | enable
  | reserved2
  | reserved3
  deriving DecidableEq, Repr

/-- The parsed NWK frame control (rule R230). -/
structure FrameControlField where
  frameType : NwkFrameType
  protocolVersion : BitVec 4
  discoverRoute : DiscoverRoute
  multicast : Bool
  security : Bool
  sourceRoute : Bool
  destination : Bool
  sourceAddress : Bool
  endDeviceInitiator : Bool
  deriving DecidableEq, Repr

/-- The key identifier (rules R114, R233). -/
inductive KeyIdentifier where
  | keyData
  | keyNetwork
  | keyTransport
  | keyLoad
  deriving DecidableEq, Repr

/-- The parsed security header (rule R233). -/
structure SecurityHeader where
  keyIdentifier : KeyIdentifier
  extendedNonce : Bool
  usingEncryption : Bool
  micLength : Nat
  frameCounter : Word
  extendedSource : Option Dword
  keySequence : Byte
  mic : Bytes
  deriving DecidableEq, Repr

/-- The parsed NWK packet, ZigbeeNetworkFrame (rule R236). -/
structure NwkFrame where
  fcf : FrameControlField
  dst : Half
  src : Half
  radius : Byte
  seq : Byte
  extDst : Option Dword
  extSrc : Option Dword
  multicastControl : Option Byte
  securityHeader : Option SecurityHeader
  payload : Bytes
  deriving DecidableEq, Repr

end Sys2Proof.Machine
end

