-- ==== Sys2Proof/Machine/RegMap.lean ====
section
/-! DEFINITION. The register map as data: `P_REGMAP`, the offset, access and field tables of rule R33; `P_RADIO_RESET`,
the reset table of rule R51; a field of a 32-bit word (rule R8); `Params`, the parameters of rule R7, which every
operation of the model that depends on one takes as an argument; and the bus addresses of rule R61. -/

namespace Sys2Proof.Machine

/-! ## Fields of a word -/

/-- A field of a register: its lowest bit and its width (rule R8). -/
structure Field where
  lo : Nat
  width : Nat
  deriving DecidableEq, Repr

/-- The value a field has in a word (rule R8). -/
def Field.get (f : Field) (w : Word) : Nat := (w.extractLsb' f.lo f.width).toNat

/-- The word with a value in a field and 0 in every other bit. -/
def Field.put (f : Field) (v : Nat) : Word := BitVec.ofNat 32 v <<< f.lo

/-- The word with 1 in every bit of a field and 0 in every other bit. -/
def Field.mask (f : Field) : Word := Field.put f (2 ^ f.width - 1)

/-! ## The radio's registers (rule R33) -/

/-- The registers of the radio block, one per row of the table of rule R33. -/
inductive Reg where
  | tasksTxen
  | tasksRxen
  | tasksStart
  | tasksStop
  | tasksDisable
  | tasksRssiStart
  | tasksRssiStop
  | tasksBcStart
  | tasksBcStop
  | tasksEdStart
  | tasksEdStop
  | tasksCcaStart
  | tasksCcaStop
  | eventsReady
  | eventsAddress
  | eventsPayload
  | eventsEnd
  | shorts
  | crcStatus
  | rxMatch
  | rxCrc
  | dai
  | packetPtr
  | frequency
  | txPower
  | mode
  | pcnf0
  | pcnf1
  | base0
  | base1
  | prefix0
  | prefix1
  | txAddress
  | rxAddresses
  | crcCnf
  | crcPoly
  | crcInit
  | tifs
  | rssiSample
  | state
  | power
  deriving DecidableEq, Repr

/-- A register's access class (rules R33, R66). -/
inductive Access where
  | task
  | event
  | readWrite
  | readOnly
  deriving DecidableEq, Repr

/-- `P_REGMAP`'s offset from `P_RADIO_BASE` (rule R33). -/
def Reg.offset : Reg → Nat
  | .tasksTxen => 0x000
  | .tasksRxen => 0x004
  | .tasksStart => 0x008
  | .tasksStop => 0x00C
  | .tasksDisable => 0x010
  | .tasksRssiStart => 0x014
  | .tasksRssiStop => 0x018
  | .tasksBcStart => 0x01C
  | .tasksBcStop => 0x020
  | .tasksEdStart => 0x024
  | .tasksEdStop => 0x028
  | .tasksCcaStart => 0x02C
  | .tasksCcaStop => 0x030
  | .eventsReady => 0x100
  | .eventsAddress => 0x104
  | .eventsPayload => 0x108
  | .eventsEnd => 0x10C
  | .shorts => 0x200
  | .crcStatus => 0x400
  | .rxMatch => 0x408
  | .rxCrc => 0x40C
  | .dai => 0x410
  | .packetPtr => 0x504
  | .frequency => 0x508
  | .txPower => 0x50C
  | .mode => 0x510
  | .pcnf0 => 0x514
  | .pcnf1 => 0x518
  | .base0 => 0x51C
  | .base1 => 0x520
  | .prefix0 => 0x524
  | .prefix1 => 0x528
  | .txAddress => 0x52C
  | .rxAddresses => 0x530
  | .crcCnf => 0x534
  | .crcPoly => 0x538
  | .crcInit => 0x53C
  | .tifs => 0x544
  | .rssiSample => 0x548
  | .state => 0x550
  | .power => 0xFFC

/-- The access column of rule R33. -/
def Reg.access : Reg → Access
  | .tasksTxen => .task
  | .tasksRxen => .task
  | .tasksStart => .task
  | .tasksStop => .task
  | .tasksDisable => .task
  | .tasksRssiStart => .task
  | .tasksRssiStop => .task
  | .tasksBcStart => .task
  | .tasksBcStop => .task
  | .tasksEdStart => .task
  | .tasksEdStop => .task
  | .tasksCcaStart => .task
  | .tasksCcaStop => .task
  | .eventsReady => .event
  | .eventsAddress => .event
  | .eventsPayload => .event
  | .eventsEnd => .event
  | .shorts => .readWrite
  | .crcStatus => .readOnly
  | .rxMatch => .readOnly
  | .rxCrc => .readOnly
  | .dai => .readOnly
  | .packetPtr => .readWrite
  | .frequency => .readWrite
  | .txPower => .readWrite
  | .mode => .readWrite
  | .pcnf0 => .readWrite
  | .pcnf1 => .readWrite
  | .base0 => .readWrite
  | .base1 => .readWrite
  | .prefix0 => .readWrite
  | .prefix1 => .readWrite
  | .txAddress => .readWrite
  | .rxAddresses => .readWrite
  | .crcCnf => .readWrite
  | .crcPoly => .readWrite
  | .crcInit => .readWrite
  | .tifs => .readWrite
  | .rssiSample => .readOnly
  | .state => .readOnly
  | .power => .readWrite

/-! ## The fields column of rule R33 -/

/-- A task's trigger (rule R34). -/
def Field.trigger : Field := { lo := 0, width := 1 }

/-- An event's flag (rule R35). -/
def Field.flag : Field := { lo := 0, width := 1 }

/-- A register that is one field. -/
def Field.whole : Field := { lo := 0, width := 32 }

/-- CRCSTATUS: 1 = CRC ok (rule R37). -/
def Field.crcOk : Field := { lo := 0, width := 1 }

/-- RXMATCH: the matched logical address (rule R37). -/
def Field.rxMatch : Field := { lo := 0, width := 3 }

/-- RXCRC: the received CRC (rule R37). -/
def Field.rxCrc : Field := { lo := 0, width := 24 }

/-- DAI: the device-address match index (rule R37). -/
def Field.dai : Field := { lo := 0, width := 3 }

/-- FREQUENCY: the offset from the base, in MHz (rule R39). -/
def Field.frequency : Field := { lo := 0, width := 7 }

/-- FREQUENCY.MAP: the base-select bit (rule R39). -/
def Field.map : Field := { lo := 8, width := 1 }

/-- TXPOWER (rule R40). -/
def Field.txPower : Field := { lo := 0, width := 8 }

/-- MODE (rule R40). -/
def Field.mode : Field := { lo := 0, width := 4 }

/-- PCNF0.LFLEN (rule R41). -/
def Field.lflen : Field := { lo := 0, width := 4 }

/-- PCNF0.S0LEN (rule R41). -/
def Field.s0len : Field := { lo := 8, width := 1 }

/-- PCNF0.S1LEN (rule R41). -/
def Field.s1len : Field := { lo := 16, width := 4 }

/-- PCNF0.S1INCL (rule R41). -/
def Field.s1incl : Field := { lo := 20, width := 1 }

/-- PCNF0.PLEN (rule R41). -/
def Field.plen : Field := { lo := 24, width := 2 }

/-- PCNF0.CRCINC (rule R41). -/
def Field.crcinc : Field := { lo := 26, width := 1 }

/-- PCNF1.MAXLEN (rule R42). -/
def Field.maxlen : Field := { lo := 0, width := 8 }

/-- PCNF1.STATLEN (rule R42). -/
def Field.statlen : Field := { lo := 8, width := 8 }

/-- PCNF1.BALEN (rule R42). -/
def Field.balen : Field := { lo := 16, width := 3 }

/-- The first of the four address prefixes of PREFIX0 or PREFIX1. -/
def Field.prefixA : Field := { lo := 0, width := 8 }

/-- The second address prefix. -/
def Field.prefixB : Field := { lo := 8, width := 8 }

/-- The third address prefix. -/
def Field.prefixC : Field := { lo := 16, width := 8 }

/-- The fourth address prefix. -/
def Field.prefixD : Field := { lo := 24, width := 8 }

/-- TXADDRESS: the logical address to transmit. -/
def Field.txAddress : Field := { lo := 0, width := 3 }

/-- RXADDRESSES: an enable per logical address. -/
def Field.rxAddresses : Field := { lo := 0, width := 8 }

/-- CRCCNF.LEN (rule R43). -/
def Field.crcLen : Field := { lo := 0, width := 2 }

/-- CRCCNF.SKIPADDR (rule R43). -/
def Field.skipaddr : Field := { lo := 8, width := 2 }

/-- CRCPOLY's polynomial (rule R43). -/
def Field.crcPoly : Field := { lo := 0, width := 24 }

/-- CRCINIT's initial value (rule R43). -/
def Field.crcInit : Field := { lo := 0, width := 24 }

/-- TIFS: the inter-frame spacing (rule R44). -/
def Field.tifs : Field := { lo := 0, width := 10 }

/-- RSSISAMPLE (rule R44). -/
def Field.rssi : Field := { lo := 0, width := 7 }

/-- STATE (rule R45). -/
def Field.state : Field := { lo := 0, width := 4 }

/-- POWER (rule R44). -/
def Field.power : Field := { lo := 0, width := 1 }

/-- The positions of the named fields: a value of the field table of `P_REGMAP`. -/
structure FieldMap where
  trigger : Field
  flag : Field
  whole : Field
  crcOk : Field
  rxMatch : Field
  rxCrc : Field
  dai : Field
  frequency : Field
  map : Field
  txPower : Field
  mode : Field
  lflen : Field
  s0len : Field
  s1len : Field
  s1incl : Field
  plen : Field
  crcinc : Field
  maxlen : Field
  statlen : Field
  balen : Field
  prefixA : Field
  prefixB : Field
  prefixC : Field
  prefixD : Field
  txAddress : Field
  rxAddresses : Field
  crcLen : Field
  skipaddr : Field
  crcPoly : Field
  crcInit : Field
  tifs : Field
  rssi : Field
  state : Field
  power : Field

/-- The field table of rule R33 for this hardware (rules R7, R39 to R45). -/
def FieldMap.spec : FieldMap where
  trigger := Field.trigger
  flag := Field.flag
  whole := Field.whole
  crcOk := Field.crcOk
  rxMatch := Field.rxMatch
  rxCrc := Field.rxCrc
  dai := Field.dai
  frequency := Field.frequency
  map := Field.map
  txPower := Field.txPower
  mode := Field.mode
  lflen := Field.lflen
  s0len := Field.s0len
  s1len := Field.s1len
  s1incl := Field.s1incl
  plen := Field.plen
  crcinc := Field.crcinc
  maxlen := Field.maxlen
  statlen := Field.statlen
  balen := Field.balen
  prefixA := Field.prefixA
  prefixB := Field.prefixB
  prefixC := Field.prefixC
  prefixD := Field.prefixD
  txAddress := Field.txAddress
  rxAddresses := Field.rxAddresses
  crcLen := Field.crcLen
  skipaddr := Field.skipaddr
  crcPoly := Field.crcPoly
  crcInit := Field.crcInit
  tifs := Field.tifs
  rssi := Field.rssi
  state := Field.state
  power := Field.power

/-- The fields of a register (rules R33, R39 to R45). -/
def Reg.fields (r : Reg) (m : FieldMap := FieldMap.spec) : List Field :=
  match r with
  | .tasksTxen => [m.trigger]
  | .tasksRxen => [m.trigger]
  | .tasksStart => [m.trigger]
  | .tasksStop => [m.trigger]
  | .tasksDisable => [m.trigger]
  | .tasksRssiStart => [m.trigger]
  | .tasksRssiStop => [m.trigger]
  | .tasksBcStart => [m.trigger]
  | .tasksBcStop => [m.trigger]
  | .tasksEdStart => [m.trigger]
  | .tasksEdStop => [m.trigger]
  | .tasksCcaStart => [m.trigger]
  | .tasksCcaStop => [m.trigger]
  | .eventsReady => [m.flag]
  | .eventsAddress => [m.flag]
  | .eventsPayload => [m.flag]
  | .eventsEnd => [m.flag]
  | .shorts => [m.whole]
  | .crcStatus => [m.crcOk]
  | .rxMatch => [m.rxMatch]
  | .rxCrc => [m.rxCrc]
  | .dai => [m.dai]
  | .packetPtr => [m.whole]
  | .frequency => [m.frequency, m.map]
  | .txPower => [m.txPower]
  | .mode => [m.mode]
  | .pcnf0 => [m.lflen, m.s0len, m.s1len, m.s1incl, m.plen, m.crcinc]
  | .pcnf1 => [m.maxlen, m.statlen, m.balen]
  | .base0 => [m.whole]
  | .base1 => [m.whole]
  | .prefix0 => [m.prefixA, m.prefixB, m.prefixC, m.prefixD]
  | .prefix1 => [m.prefixA, m.prefixB, m.prefixC, m.prefixD]
  | .txAddress => [m.txAddress]
  | .rxAddresses => [m.rxAddresses]
  | .crcCnf => [m.crcLen, m.skipaddr]
  | .crcPoly => [m.crcPoly]
  | .crcInit => [m.crcInit]
  | .tifs => [m.tifs]
  | .rssiSample => [m.rssi]
  | .state => [m.state]
  | .power => [m.power]

/-- The bits of a register that belong to a field. -/
def Reg.mask (r : Reg) (m : FieldMap := FieldMap.spec) : Word := ((r.fields m).map Field.mask).foldr (· ||| ·) 0

/-- A word has no bit set outside the fields of a register. -/
def Reg.fits (r : Reg) (w : Word) (m : FieldMap := FieldMap.spec) : Bool := w &&& ~~~(r.mask m) = 0

/-! ## The reset table -/

/-- `P_RADIO_RESET` (rule R51); the read-only registers it leaves unspecified are PRESUMED the family's 0 (log 7). -/
def Reg.resetValue : Reg → Word
  | .tasksTxen => 0
  | .tasksRxen => 0
  | .tasksStart => 0
  | .tasksStop => 0
  | .tasksDisable => 0
  | .tasksRssiStart => 0
  | .tasksRssiStop => 0
  | .tasksBcStart => 0
  | .tasksBcStop => 0
  | .tasksEdStart => 0
  | .tasksEdStop => 0
  | .tasksCcaStart => 0
  | .tasksCcaStop => 0
  | .eventsReady => 0
  | .eventsAddress => 0
  | .eventsPayload => 0
  | .eventsEnd => 0
  | .shorts => 0
  | .crcStatus => 0
  | .rxMatch => 0
  | .rxCrc => 0
  | .dai => 0
  | .packetPtr => 0
  | .frequency => 0x00000002
  | .txPower => 0
  | .mode => 0
  | .pcnf0 => 0
  | .pcnf1 => 0
  | .base0 => 0
  | .base1 => 0
  | .prefix0 => 0
  | .prefix1 => 0
  | .txAddress => 0
  | .rxAddresses => 0
  | .crcCnf => 0
  | .crcPoly => 0
  | .crcInit => 0
  | .tifs => 0
  | .rssiSample => 0
  | .state => 0
  | .power => 1

/-! ## The factory information -/

/-- The identity words of the factory-information block (rule R46). -/
inductive FicrWord where
  | devidHi
  | devidLo
  deriving DecidableEq, Repr

/-! ## The parameters -/

/-- The parameters of rule R7: each is an argument of the operations that depend on it. -/
structure Params where
  bufCap : Nat
  maxLen : Nat
  freqMin : Nat
  freqMax : Nat
  freqBaseHi : Nat
  freqBaseLo : Nat
  ackAttempts : Nat
  assocSeq : Byte
  dataReqSeq : Byte
  micLen : Nat
  beaconSeq : Byte
  fcsLen : Nat
  rxTrim : Nat
  assocSrcPan : Half
  dataReqCompress : Bool
  acceptedVersions : List (BitVec 2)
  startVisibleAtomic : Bool
  crossIdle : CrossIdle
  bufAddr : Word
  radioBase : Nat
  offset : Reg → Nat
  fields : FieldMap
  ficrBase : Nat
  devidHiOff : Nat
  devidLoOff : Nat
  regWidth : Nat
  addrWidth : Nat
  resetValue : Reg → Word

/-- The table of rule R7: the parameters of this hardware, the defaults that a caller may override. -/
def Params.spec : Params where
  bufCap := Config.bufCap
  maxLen := Config.maxLen
  freqMin := Config.freqMin
  freqMax := Config.freqMax
  freqBaseHi := Config.freqBaseHi
  freqBaseLo := Config.freqBaseLo
  ackAttempts := Config.ackAttempts
  assocSeq := Config.assocSeq
  dataReqSeq := Config.dataReqSeq
  micLen := Config.micLen
  beaconSeq := Config.beaconSeq
  fcsLen := Config.fcsLen
  rxTrim := Config.rxTrim
  assocSrcPan := Config.assocSrcPan
  dataReqCompress := Config.dataReqCompress
  acceptedVersions := Config.acceptedVersions
  startVisibleAtomic := Config.startVisibleAtomic
  crossIdle := Config.crossIdle
  bufAddr := Config.bufAddr
  radioBase := Config.radioBase
  offset := Reg.offset
  fields := FieldMap.spec
  ficrBase := Config.ficrBase
  devidHiOff := Config.devidHiOff
  devidLoOff := Config.devidLoOff
  regWidth := Config.regWidth
  addrWidth := Config.addrWidth
  resetValue := Reg.resetValue

/-- What a radio register keeps of a 32-bit value: the low bits, as many as the register is wide (rules R7, R12). -/
def Params.keep (p : Params) (v : Word) : Word := (v.setWidth p.regWidth).setWidth 32

/-- A register's word at reset (rules R7, R51). -/
def Params.atReset (p : Params) (r : Reg) : Word := p.keep (p.resetValue r)

/-! ## Bus addresses -/

/-- A bus address: a number below two to the power of the address width (rules R7, R61). -/
def Params.busAddress (p : Params) (a : Nat) : Nat := a % 2 ^ p.addrWidth

/-- The packet buffer's bus address, as the 32-bit value that PACKETPTR is written with (rules R38, R61). -/
def Params.bufPointer (p : Params) : Word := (p.bufAddr.setWidth p.addrWidth).setWidth 32

/-- A register's bus address (rule R61). -/
def Reg.address (r : Reg) (p : Params := Params.spec) : Nat := p.busAddress (p.radioBase + p.offset r)

/-- An identity word's offset (rules R7, R46). -/
def FicrWord.offset (w : FicrWord) (p : Params := Params.spec) : Nat :=
  match w with
  | .devidHi => p.devidHiOff
  | .devidLo => p.devidLoOff

/-- An identity word's bus address (rule R61). -/
def FicrWord.address (w : FicrWord) (p : Params := Params.spec) : Nat := p.busAddress (p.ficrBase + w.offset p)

end Sys2Proof.Machine
end

