-- ==== Sys2Proof/Machine/State.lean ====
section
/-! DEFINITION. The state of a run (rule R20) as plain data: the block's, the environment's and the model's own fields
(which agent moves next, the host's pending writes, the counter of free values), with its value after reset
(rules R50, R51, R52, R280). -/

namespace Sys2Proof.Machine

/-! ## What the machine answers -/

/-- Why the machine stops with a fault. No run from reset reaches either. -/
inductive Fault where
  /-- Raised by a command's meaning when the sequencer stands at a line that is not in that command's micro-program
  (log 23). Safe: the spec gives such a position no meaning and its sequencer never takes it. -/
  | strayLine
  /-- Raised by MemRead and MemWrite for an index past the packet buffer (rules R12, R67; log 24). Safe: rule R67 says
  that such an index is never generated. -/
  | bufferRange
  deriving DecidableEq, Repr

/-- Why the machine gives no meaning. -/
inductive Refusal where
  /-- Raised by `exec` alone, for a command with no meaning yet; no arm of this model answers so. Safe. -/
  | notModelled (mnemonic : String)
  deriving DecidableEq, Repr

/-! ## Status, halt reasons and results -/

/-- A halt reason (rule R256). -/
inductive HaltReason where
  | illegalCommand
  | notConstructed
  | alreadyConstructed
  | bufferOverflow
  deriving DecidableEq, Repr

/-- The values of `RES.status` (rule R250). -/
inductive Status where
  | ok
  | rangeError
  | parseError
  | protocolTimeout
  | halted
  | busy
  deriving DecidableEq, Repr

/-- The session phase register (rule R29). -/
inductive Handshake where
  | noHandshake
  | assocAcked
  | dataReqAcked
  deriving DecidableEq, Repr

/-- The session registers that `RES.session` shows (rules R27, R28, R29, R255). -/
structure Session where
  extActive : Bool
  assignedShort : Option Half
  handshake : Handshake
  deriving DecidableEq, Repr

/-- The NWK outcome beside a received MAC frame: `none | some (Ok f | Err ParseError)` (rule R203). -/
inductive NwkOutcome where
  | notForwarded
  | parsed (f : NwkFrame)
  | parseError
  deriving DecidableEq, Repr

/-- A command's result value (rule R255). -/
inductive Value where
  /-- RECEIVE: the on-air length and the frame bytes. -/
  | received (len : Byte) (frame : Bytes)
  /-- An encoder's bytes. -/
  | bytes (b : Bytes)
  /-- MAC_DECODE. -/
  | mac (m : MacFrame)
  /-- RECEIVE_ONCE. -/
  | macAndNwk (m : MacFrame) (nwk : NwkOutcome)
  /-- ASSOCIATE: the phases reached. -/
  | phases (assocAcked dataReqAcked : Bool)
  /-- NWK_PARSE_FCF. -/
  | fcf (f : FrameControlField)
  /-- NWK_PARSE_PACKET. -/
  | nwk (f : NwkFrame)
  /-- NWK_PARSE_SECHDR: the header and the end cursor. -/
  | securityHeader (h : SecurityHeader) (endCursor : Nat)
  deriving DecidableEq, Repr

/-- The result record `RES` (rule R255). -/
structure Res where
  status : Status
  halt : Option HaltReason
  value : Option Value
  session : Session
  deriving DecidableEq, Repr

/-! ## Host interface and sequencer -/

/-- The host-interface registers the host writes (rule R81). -/
structure HostRegs where
  cmd : Word
  ext : Dword
  dpan : Half
  dshort : Half
  span : Half
  cap : Byte
  mode : Word
  pcnf0 : Word
  crccnf : Word
  crcpoly : Word
  inp : Bytes
  deriving DecidableEq, Repr

/-- The lines of CONSTRUCT after its first (rule R133). -/
inductive ConstructLine where
  | readHi
  | readLo
  | setExtended
  | setPacketPtr
  | setPcnf1
  | initSession
  | setConstructed
  deriving DecidableEq, Repr

/-- The lines of CONFIGURE after its first (rule R136). -/
inductive ConfigureLine where
  | rangeTest
  | setFrequency
  | setMode
  | setPcnf0
  | setCrcCnf
  | setCrcPoly
  deriving DecidableEq, Repr

/-- The lines of `TransmitBlocking` (rule R137). -/
inductive TxLine where
  | check
  | writeLen
  | writeBytes
  | shorts
  | readState
  | enable
  | pollReady
  | start
  | pollDone
  deriving DecidableEq, Repr

/-- The lines of `ReceiveBlocking` (rule R138). -/
inductive RxLine where
  | shorts
  | readState
  | enable
  | pollReady
  | start
  | pollDone
  | readLen
  | readFrame
  deriving DecidableEq, Repr

/-- The lines of `ReceiveOnceProc` after its ReceiveBlocking (rule R203). -/
inductive OnceLine where
  | decode
  | logParse
  | dispatch
  | nwk
  | logNwk
  deriving DecidableEq, Repr

/-- The lines of `WriteAndExpectAckProc` beside its calls (rule R205). -/
inductive WaitLine where
  | check
  | loop
  | tally
  deriving DecidableEq, Repr

/-- The lines of ASSOCIATE beside its first and last (rule R213). -/
inductive AssocLine where
  | request
  | afterRequest
  | setAcked
  | logAcked
  | dataRequest
  | afterDataRequest
  | logDataReqAcked
  | abort
  | fail
  deriving DecidableEq, Repr

/-- The position inside a command's micro-program (rule R22). -/
inductive Line where
  /-- The first line of the command. -/
  | entry
  | construct (l : ConstructLine)
  | configure (l : ConfigureLine)
  | tx (l : TxLine)
  | rx (l : RxLine)
  | once (l : OnceLine)
  | wait (l : WaitLine)
  | assoc (l : AssocLine)
  /-- The line that ends the command, or, for WRITE_EXPECT_ACK, that looks at the wait's outcome. -/
  | finish
  /-- WRITE_EXPECT_ACK's line that raises PROTOCOL_TIMEOUT. -/
  | raiseTimeout
  deriving DecidableEq, Repr

/-- The local values of a running command (rule R22): its operands as sampled at the start step (rule R68), the
arguments, results and return points of the procedures it calls, the attempt counter. -/
structure Frame where
  /-- The sampled operands. -/
  ops : HostRegs
  /-- CONSTRUCT's `hi` (rule R133). -/
  hi : Word
  /-- CONSTRUCT's `lo` (rule R133). -/
  lo : Word
  /-- The STATE word read before the enable task (rules R137, R138). -/
  stateRead : Word
  /-- TransmitBlocking's `bytes`. -/
  txBytes : Bytes
  /-- TransmitBlocking's `onAirLength`. -/
  txOnAir : Byte
  /-- TransmitBlocking's return point. -/
  txRet : Line
  /-- ReceiveBlocking's `L`. -/
  rxLen : Byte
  /-- ReceiveBlocking's `F`. -/
  rxBytes : Bytes
  /-- ReceiveBlocking's return point. -/
  rxRet : Line
  /-- ReceiveOnceProc's `r`: `some m` for `Ok m`, `none` for `Err ParseError`. -/
  mac : Option MacFrame
  /-- ReceiveOnceProc's `nwk`. -/
  nwk : NwkOutcome
  /-- ReceiveOnceProc's return point. -/
  onceRet : Line
  /-- WriteAndExpectAckProc's `seq`. -/
  waitSeq : Byte
  /-- WriteAndExpectAckProc's `bytes`. -/
  waitBytes : Bytes
  /-- WriteAndExpectAckProc's attempt counter `k`. -/
  k : Nat
  /-- WriteAndExpectAckProc's outcome: `true` for Ok, `false` for `Err ProtocolTimeout`. -/
  acked : Bool
  /-- WriteAndExpectAckProc's return point. -/
  waitRet : Line
  deriving DecidableEq, Repr

/-- `Running(op, step, frame)` (rule R22). -/
structure Run where
  op : Byte
  line : Line
  frame : Frame
  deriving DecidableEq, Repr

/-- The sequencer (rule R22). -/
inductive Seqr where
  | idle
  | running (r : Run)
  deriving DecidableEq, Repr

/-! ## The packet buffer -/

/-- The packet buffer's written bytes (rule R31), by index, in one canonical form (`Memory.wf`): strictly rising
indices below `P_BUF_CAP`. An unlisted index holds no byte yet; what reading it gives is `Memory.unlisted` (log 4). -/
abbrev Memory := List Host.Cell

/-! ## The radio and the air -/

/-- The radio register block (rule R33), but the task registers and STATE, which is `rstate`. -/
structure RadioRegs where
  eventsReady : Word
  eventsAddress : Word
  eventsPayload : Word
  eventsEnd : Word
  shorts : Word
  crcStatus : Word
  rxMatch : Word
  rxCrc : Word
  dai : Word
  packetPtr : Word
  frequency : Word
  txPower : Word
  mode : Word
  pcnf0 : Word
  pcnf1 : Word
  base0 : Word
  base1 : Word
  prefix0 : Word
  prefix1 : Word
  txAddress : Word
  rxAddresses : Word
  crcCnf : Word
  crcPoly : Word
  crcInit : Word
  tifs : Word
  rssiSample : Word
  power : Word
  deriving DecidableEq, Repr

/-- The task registers (rules R33, R34, R51). A register holds its reset value until it is written, and from then on a
free word, because rule R34 leaves what a read returns unspecified (log 17). -/
structure TaskRegs where
  txen : Word
  rxen : Word
  start : Word
  stop : Word
  disable : Word
  rssiStart : Word
  rssiStop : Word
  bcStart : Word
  bcStop : Word
  edStart : Word
  edStop : Word
  ccaStart : Word
  ccaStop : Word
  /-- The model's own: how many free words the writes have left. -/
  writes : Nat
  deriving DecidableEq, Repr

/-- The radio's state, what STATE reads (rule R45). -/
inductive RadioState where
  | disabled
  | rxRampUp
  | rxIdle
  | rx
  | rxDisable
  | txRampUp
  | txIdle
  | tx
  | txDisable
  deriving DecidableEq, Repr

/-- The tasks written but not yet acted on (rule R47). -/
structure Pending where
  txen : Bool
  rxen : Bool
  start : Bool
  deriving DecidableEq, Repr

/-- A frame the air delivers (rule R167): `F`, its length being `L`, and what the radio will say of it in the
received-packet details (rule R37; log 16). -/
structure AirFrame where
  bytes : Bytes
  crcOk : Bool
  rxMatch : BitVec 3
  rxCrc : BitVec 24
  dai : BitVec 3
  deriving DecidableEq, Repr

/-- A frame the air has received (rule R165). -/
inductive AirTx where
  /-- `AirTx(txLen, T)`. -/
  | frame (len : Byte) (bytes : Bytes)
  /-- A frame sent under a configuration other than that of rule R168: the spec says nothing of it (log 13). -/
  | undescribed
  deriving DecidableEq, Repr

/-- An abstract message of the sink (rule R206). -/
inductive LogMsg where
  | msgParseError
  | msgNwkParseError
  | msgAckTimeout (seq : Byte)
  | msgAssocTimeout
  | msgAssocAcked
  | msgDataReqAcked
  | msgDataReqTimeout
  deriving DecidableEq, Repr

/-! ## The interleaving (the model's own) -/

/-- A register write of the host (rule R81). -/
inductive HostWrite where
  | cmd (w : Word)
  | ext (v : Dword)
  | dpan (v : Half)
  | dshort (v : Half)
  | span (v : Half)
  | cap (v : Byte)
  | mode (v : Word)
  | pcnf0 (v : Word)
  | crccnf (v : Word)
  | crcpoly (v : Word)
  | inp (b : Bytes)
  deriving DecidableEq, Repr

/-- A radio transition (rules R162 to R167). `accept` is the choice rule R162 leaves open under `Either` (log 11). -/
inductive RadioMove where
  | takeTxen (accept : Bool)
  | takeRxen (accept : Bool)
  | takeStart
  | rampUp
  | txEnd
  | rxEnd
  deriving DecidableEq, Repr

/-- Which agent takes the next step of the interleaving (rule R69; log 1). -/
inductive Turn where
  | host
  | controller
  | radio (m : RadioMove)
  deriving DecidableEq, Repr

/-! ## The state -/

/-- The state of a run (rule R20). -/
structure State where
  /-- CMD, ARG_* and IN (rule R81). -/
  host : HostRegs
  /-- RES (rule R255); `none` while it holds no result (rules R50, R281). -/
  res : Option Res
  /-- The sequencer (rule R22). -/
  seqr : Seqr
  /-- `halted` (rule R24). -/
  halted : Option HaltReason
  /-- `constructed` (rule R25). -/
  constructed : Bool
  /-- `ownExtended` (rule R26). -/
  ownExtended : Dword
  /-- `extActive`, `assignedShort`, `handshake` (rules R27 to R29). -/
  session : Session
  /-- The packet buffer (rule R31). -/
  buf : Memory
  /-- The radio register block (rule R33). -/
  radio : RadioRegs
  /-- The task registers (rules R33, R34). -/
  tasks : TaskRegs
  /-- The radio's state (rules R45, R47). -/
  rstate : RadioState
  /-- The radio's pending tasks (rule R47). -/
  pending : Pending
  /-- The on-air length latched when the transmission began (rules R47, R166). -/
  txLen : Byte
  /-- The buffer as it stood when the transmission began (rule R165). -/
  txImage : Memory
  /-- The buffer indices the controller has written since the transmission began (rule R165). -/
  txDirty : List Nat
  /-- The model's own: the configuration was that of rule R168 when the transmission or reception began (log 14). -/
  airConf : Bool
  /-- The FICR identity word at `P_DEVID_HI_OFF` (rule R46). -/
  ficrHi : Word
  /-- The FICR identity word at `P_DEVID_LO_OFF` (rule R46). -/
  ficrLo : Word
  /-- The air's queue of frames to deliver (rule R20). -/
  airIn : List AirFrame
  /-- The frames the air has received, oldest first (rule R165). -/
  airOut : List AirTx
  /-- The sink's log, oldest first (rule R268). -/
  sink : List LogMsg
  /-- The model's own: the register writes the host has still to make, oldest first (log 3). -/
  hostQ : List HostWrite
  /-- The model's own: which agents move next (log 1). -/
  turns : List Turn
  /-- The model's own: how many free values have been drawn (log 12). -/
  draws : Nat
  deriving DecidableEq, Repr

/-! ## Reset -/

/-- The host-interface registers at reset: unspecified by rule R50; zero by DESIGN CHOICE (log 5). -/
def HostRegs.reset : HostRegs where
  cmd := 0
  ext := 0
  dpan := 0
  dshort := 0
  span := 0
  cap := 0
  mode := 0
  pcnf0 := 0
  crccnf := 0
  crcpoly := 0
  inp := []

/-- The session registers at reset (rules R27, R28, R29, R50), which are also what CONSTRUCT sets (rule R133). -/
def Session.reset : Session where
  extActive := false
  assignedShort := none
  handshake := .noHandshake

/-- The radio's registers at reset, from `P_RADIO_RESET` (rule R51). -/
def RadioRegs.reset (p : Params := Params.spec) : RadioRegs where
  eventsReady := p.atReset .eventsReady
  eventsAddress := p.atReset .eventsAddress
  eventsPayload := p.atReset .eventsPayload
  eventsEnd := p.atReset .eventsEnd
  shorts := p.atReset .shorts
  crcStatus := p.atReset .crcStatus
  rxMatch := p.atReset .rxMatch
  rxCrc := p.atReset .rxCrc
  dai := p.atReset .dai
  packetPtr := p.atReset .packetPtr
  frequency := p.atReset .frequency
  txPower := p.atReset .txPower
  mode := p.atReset .mode
  pcnf0 := p.atReset .pcnf0
  pcnf1 := p.atReset .pcnf1
  base0 := p.atReset .base0
  base1 := p.atReset .base1
  prefix0 := p.atReset .prefix0
  prefix1 := p.atReset .prefix1
  txAddress := p.atReset .txAddress
  rxAddresses := p.atReset .rxAddresses
  crcCnf := p.atReset .crcCnf
  crcPoly := p.atReset .crcPoly
  crcInit := p.atReset .crcInit
  tifs := p.atReset .tifs
  rssiSample := p.atReset .rssiSample
  power := p.atReset .power

/-- The task registers at reset, from `P_RADIO_RESET` (rule R51). -/
def TaskRegs.reset (p : Params := Params.spec) : TaskRegs where
  txen := p.atReset .tasksTxen
  rxen := p.atReset .tasksRxen
  start := p.atReset .tasksStart
  stop := p.atReset .tasksStop
  disable := p.atReset .tasksDisable
  rssiStart := p.atReset .tasksRssiStart
  rssiStop := p.atReset .tasksRssiStop
  bcStart := p.atReset .tasksBcStart
  bcStop := p.atReset .tasksBcStop
  edStart := p.atReset .tasksEdStart
  edStop := p.atReset .tasksEdStop
  ccaStart := p.atReset .tasksCcaStart
  ccaStop := p.atReset .tasksCcaStop
  writes := 0

/-- The machine after its one power-on reset (rules R50, R51, R52, R280, R281), under parameters. -/
def State.resetWith (p : Params) : State where
  host := HostRegs.reset
  res := none
  seqr := .idle
  halted := none
  constructed := false
  ownExtended := 0
  session := Session.reset
  buf := []
  radio := RadioRegs.reset p
  tasks := TaskRegs.reset p
  rstate := .disabled
  pending := { txen := false, rxen := false, start := false }
  txLen := 0
  txImage := []
  txDirty := []
  airConf := false
  ficrHi := Config.deviceIdHi
  ficrLo := Config.deviceIdLo
  airIn := []
  airOut := []
  sink := []
  hostQ := []
  turns := []
  draws := 0

/-- The machine after its one power-on reset, with the parameters of this hardware (rule R7). -/
def State.reset : State := State.resetWith Params.spec

end Sys2Proof.Machine
end

