-- ==== Sys2Proof/Machine/Operands.lean ====
section
/-! DEFINITION. The operand forms beside the command word's own fields (rule R83): the host's register writes
(rule R81), and CONFIGURE's frequency operand (rules R134, R135, R39). -/

namespace Sys2Proof.Machine

/-- An operand register or CMD after the host has written it (rule R81). -/
def HostRegs.set (h : HostRegs) : HostWrite → HostRegs
  | .cmd w => { h with cmd := w }
  | .ext v => { h with ext := v }
  | .dpan v => { h with dpan := v }
  | .dshort v => { h with dshort := v }
  | .span v => { h with span := v }
  | .cap v => { h with cap := v }
  | .mode v => { h with mode := v }
  | .pcnf0 v => { h with pcnf0 := v }
  | .crccnf v => { h with crccnf := v }
  | .crcpoly v => { h with crcpoly := v }
  | .inp b => { h with inp := b }

/-- `freqValid` (rule R134). -/
def freqValid (f : Nat) (p : Params := Params.spec) : Bool := decide (p.freqMin ≤ f) && decide (f ≤ p.freqMax)

/-- `freqEncode` (rule R135): the FREQUENCY word, the offset in its field and the base-select bit MAP (rule R39). -/
def freqEncode (f : Nat) (p : Params := Params.spec) : Word :=
  if p.freqBaseHi ≤ f then p.fields.frequency.put (f - p.freqBaseHi)
  else p.fields.frequency.put (f - p.freqBaseLo) ||| p.fields.map.put 1

/-- The on-air length of a block-originated frame: its byte length and the FCS (rules R203, R205, R214(d)). -/
def onAirOf (bytes : Bytes) (p : Params := Params.spec) : Byte := BitVec.ofNat 8 (bytes.length + p.fcsLen)

/-- The device identity from its two words, high and low (rules R46, R64). -/
def joinIdentity (hi lo : Word) : Dword := (hi.setWidth 64 <<< 32) ||| lo.setWidth 64

end Sys2Proof.Machine
end

