-- ==== Sys2Proof/Machine/Flags.lean ====
section
/-! DEFINITION. The block has no flags (rule R48): what a host reads after a command is `RES.status` and `RES.halt`.
Their codes (rules R250, R256) and STATE's (rule R45). -/

namespace Sys2Proof.Machine

/-- The u8 code of a status (rule R250). -/
def Status.code : Status → Byte
  | .ok => 0x00
  | .rangeError => 0x01
  | .parseError => 0x02
  | .protocolTimeout => 0x03
  | .halted => 0x80
  | .busy => 0xff

/-- The u8 code of a halt reason (rule R256). -/
def HaltReason.code : HaltReason → Byte
  | .illegalCommand => 0x81
  | .notConstructed => 0x82
  | .alreadyConstructed => 0x83
  | .bufferOverflow => 0x84

/-- STATE's encoding (rule R45). -/
def RadioState.code : RadioState → BitVec 4
  | .disabled => 0
  | .rxRampUp => 1
  | .rxIdle => 2
  | .rx => 3
  | .rxDisable => 4
  | .txRampUp => 9
  | .txIdle => 10
  | .tx => 11
  | .txDisable => 12

/-- A word read from STATE shows the given state: bits 3:0 hold its code (rules R45, R132). A reserved code shows
none. -/
def shows (w : Word) (r : RadioState) (p : Params := Params.spec) : Bool := p.fields.state.get w = r.code.toNat

end Sys2Proof.Machine
end

