-- ==== Sys2Proof/Machine/Memory.lean ====
section
/-! DEFINITION. The named operations over the packet buffer's bytes (rules R31, R60). -/

namespace Sys2Proof.Machine

/-- What an unlisted index reads as: any value, the reset draw (rule R52; log 4). -/
def Memory.unlisted (a : Nat) : Byte := Config.bufDraw a

/-- The byte an index holds, if one has been written. -/
def Memory.lookup : Memory → Nat → Option Byte
  | [], _ => none
  | (b, v) :: m, a => if a = b then some v else Memory.lookup m a

/-- The byte at an index. -/
def Memory.read (m : Memory) (a : Nat) : Byte := (Memory.lookup m a).getD (Memory.unlisted a)

/-- `n` bytes from an index on. -/
def Memory.readBytes (m : Memory) : Nat → Nat → Bytes
  | _, 0 => []
  | a, n + 1 => Memory.read m a :: Memory.readBytes m (a + 1) n

/-- One byte written, the canonical form kept. -/
def Memory.write : Memory → Nat → Byte → Memory
  | [], a, v => [(a, v)]
  | (b, w) :: m, a, v =>
    if a < b then (a, v) :: (b, w) :: m
    else if a = b then (a, v) :: m
    else (b, w) :: Memory.write m a v

/-- A byte string written from an index on. -/
def Memory.writeBytes (m : Memory) : Nat → Bytes → Memory
  | _, [] => m
  | a, v :: bs => Memory.writeBytes (Memory.write m a v) (a + 1) bs

/-- Every listed index is at least `lo` and rising, and below `P_BUF_CAP`. -/
def Memory.wfFrom : Nat → Memory → Bool
  | _, [] => true
  | lo, (a, _) :: m => decide (lo ≤ a) && decide (a < Config.bufCap) && Memory.wfFrom (a + 1) m

/-- The canonical form: strictly rising indices, all below `P_BUF_CAP` (rule R60). -/
def Memory.wf (m : Memory) : Bool := Memory.wfFrom 0 m

end Sys2Proof.Machine
end

