-- ==== Sys2Proof/Machine/Radio.lean ====
section
/-! DEFINITION. The radio agent and the air (rules R160 to R168): one function per transition. A transition that is not
enabled changes nothing (log 27). No transition looks at SHORTS: with SHORTS = 0 rule R160 says so; with another value
it is the model's DESIGN CHOICE (log 41). -/

namespace Sys2Proof.Machine

/-- The words CONFIGURE writes and the air depends on set no bit outside their fields (rules R40, R41, R43, R33). -/
def fieldsOnly (r : RadioRegs) (p : Params := Params.spec) : Bool :=
  Reg.fits .mode r.mode p.fields && Reg.fits .pcnf0 r.pcnf0 p.fields && Reg.fits .crcCnf r.crcCnf p.fields
    && Reg.fits .crcPoly r.crcPoly p.fields

/-- Whether the radio's configuration is the one under which rules R165 and R167 describe the air frames: the duty of
rule R168, with no bit set outside the registers' fields (log 13). -/
def airConfigured (r : RadioRegs) (p : Params := Params.spec) : Bool :=
  decide (p.fields.mode.get r.mode = Config.mode154) && decide (p.fields.lflen.get r.pcnf0 = Config.lflen154)
    && decide (p.fields.crcinc.get r.pcnf0 = 1) && decide (p.fields.crcLen.get r.crcCnf = p.fcsLen) && fieldsOnly r p

/-- Whether a cross-idle enable task is accepted (rule R162): under `Either` both are admitted, and the interleaving
says which (log 11). -/
def CrossIdle.accepts (c : CrossIdle) (choice : Bool) : Bool :=
  match c with
  | .accept => true
  | .ignore => false
  | .either => choice

/-- TXEN taken (rule R162). -/
def takeTxen (c : CrossIdle) (choice : Bool) (s : State) : State :=
  if s.pending.txen then
    let t := { s with pending := { s.pending with txen := false } }
    match s.rstate with
    | .disabled => { t with rstate := .txRampUp }
    | .rxIdle => if CrossIdle.accepts c choice then { t with rstate := .txRampUp } else t
    | _ => t
  else s

/-- RXEN taken (rule R163). -/
def takeRxen (c : CrossIdle) (choice : Bool) (s : State) : State :=
  if s.pending.rxen then
    let t := { s with pending := { s.pending with rxen := false } }
    match s.rstate with
    | .disabled => { t with rstate := .rxRampUp }
    | .txIdle => if CrossIdle.accepts c choice then { t with rstate := .rxRampUp } else t
    | _ => t
  else s

/-- START acted on (rule R166): in TxIdle the transmission begins and `txLen` is latched, with the buffer as it stands
(rule R165); in RxIdle the reception begins; in any other state the task is dropped. -/
def acceptStart (s : State) (p : Params := Params.spec) : State :=
  match s.rstate with
  | .txIdle =>
    { s with
      rstate := .tx
      txLen := s.buf.read 0
      txImage := s.buf
      txDirty := []
      airConf := airConfigured s.radio p }
  | .rxIdle => { s with rstate := .rx, airConf := airConfigured s.radio p }
  | _ => s

/-- START taken (rule R166). -/
def takeStart (s : State) (p : Params := Params.spec) : State :=
  if s.pending.start then acceptStart { s with pending := { s.pending with start := false } } p else s

/-- An event register with its flag set (rule R35). -/
def setEvent (w : Word) (p : Params := Params.spec) : Word := p.keep (w ||| p.fields.flag.put 1)

/-- An event register whose event may have occurred: the spec does not say (log 15). -/
def maySetEvent (w : Word) (n : Nat) (p : Params := Params.spec) : Word := if Config.freeBit n then setEvent w p else w

/-- A ramp-up ends (rule R164), and the radio is ready (rule R35; log 15). It raises no task: with SHORTS = 0 by rule
R160, with another value of SHORTS by DESIGN CHOICE (log 41). -/
def rampUp (s : State) (p : Params := Params.spec) : State :=
  match s.rstate with
  | .txRampUp => { s with rstate := .txIdle, radio := { s.radio with eventsReady := setEvent s.radio.eventsReady p } }
  | .rxRampUp => { s with rstate := .rxIdle, radio := { s.radio with eventsReady := setEvent s.radio.eventsReady p } }
  | _ => s

/-- The event registers at the end of a packet (rule R35): packet-end is set, the other two may have been (log 15). -/
def packetEvents (n : Nat) (r : RadioRegs) (p : Params := Params.spec) : RadioRegs :=
  { r with
    eventsEnd := setEvent r.eventsEnd p
    eventsPayload := maySetEvent r.eventsPayload n p
    eventsAddress := maySetEvent r.eventsAddress (n + 1) p }

/-- `T` of rule R165: `max(txLen − P_FCS_LEN, 0)` bytes of `buf[1 ..)` as they stood when the transmission began, but
any value for a byte the controller has written since (log 12). -/
def txFrame (s : State) (p : Params := Params.spec) : Bytes :=
  (List.range (s.txLen.toNat - p.fcsLen)).map fun i =>
    if s.txDirty.contains (1 + i) then Config.freeByte (s.draws + i) else s.txImage.read (1 + i)

/-- The transmission ends (rule R165). Under a configuration other than that of rule R168 the frame is not described
(log 13). -/
def txEnd (s : State) (p : Params := Params.spec) : State :=
  match s.rstate with
  | .tx =>
    { s with
      rstate := .txIdle
      airOut := s.airOut ++ [if s.airConf then .frame s.txLen (txFrame s p) else .undescribed]
      radio := packetEvents s.draws s.radio p
      draws := s.draws + p.bufCap }
  | _ => s

/-- `n` free bytes, numbered from `d`. -/
def freeBytes (d n : Nat) : Bytes := (List.range n).map fun i => Config.freeByte (d + i)

/-- What the DMA leaves in the buffer at a reception's end (rule R167): `buf[0] <- L`, `buf[1 .. 1+L) <- F`. Under a
configuration other than that of rule R168 every byte is any value (log 13). -/
def rxBuffer (described : Bool) (d : Nat) (m : Memory) (f : AirFrame) (p : Params := Params.spec) :
    Memory :=
  if described then Memory.writeBytes m 0 (BitVec.ofNat 8 f.bytes.length :: f.bytes)
  else Memory.writeBytes m 0 (freeBytes d p.bufCap)

/-- The received-packet details, each in its field (rules R33, R37; log 16). -/
def rxDetails (f : AirFrame) (r : RadioRegs) (p : Params := Params.spec) : RadioRegs :=
  { r with
    crcStatus := p.keep (p.fields.crcOk.put (if f.crcOk then 1 else 0))
    rxMatch := p.keep (p.fields.rxMatch.put f.rxMatch.toNat)
    rxCrc := p.keep (p.fields.rxCrc.put f.rxCrc.toNat)
    dai := p.keep (p.fields.dai.put f.dai.toNat) }

/-- The reception ends (rule R167): the air delivers the first frame of its queue, of `0 ≤ L ≤ P_MAXLEN` bytes
(log 26). -/
def rxEnd (s : State) (p : Params := Params.spec) : State :=
  match s.rstate, s.airIn with
  | .rx, f :: rest =>
    if f.bytes.length ≤ p.maxLen then
      { s with
        rstate := .rxIdle
        airIn := rest
        buf := rxBuffer (s.airConf && airConfigured s.radio p) s.draws s.buf f p
        radio := packetEvents s.draws (rxDetails f s.radio p) p
        draws := s.draws + p.bufCap }
    else s
  | _, _ => s

/-- One radio step (rule R160): the transition the interleaving names, and no task raised by it, whatever SHORTS holds
(log 41). -/
def radioStep (m : RadioMove) (s : State) (p : Params := Params.spec) : State :=
  match m with
  | .takeTxen choice => takeTxen p.crossIdle choice s
  | .takeRxen choice => takeRxen p.crossIdle choice s
  | .takeStart => takeStart s p
  | .rampUp => rampUp s p
  | .txEnd => txEnd s p
  | .rxEnd => rxEnd s p

end Sys2Proof.Machine
end

