-- ==== Sys2Proof/Machine/Ops.lean ====
section
/-! DEFINITION. The primitives of rule R12: RegRead and RegWrite (rules R33, R66), FicrRead, MemRead and MemWrite,
Log; and the four ways a controller step writes RES: the start step (rule R23), `post`, `raise`
(rule R255) and `Halt` (rule R257), which is this hardware's exception and is taken here once. There is no return from
it (rule R262). -/

namespace Sys2Proof.Machine

/-- What a controller step answers. -/
abbrev Out := Host.Outcome State Fault Refusal

/-! ## The radio registers -/

/-- `RegRead` (rules R12, R66): STATE shows `rstate` in its field (rule R45); any other register gives the word it
holds, which for a task register is the reset value (rule R51) until a write leaves a free word there (rule R34;
log 17). No read has a side effect. -/
def regRead (r : Reg) (s : State) (p : Params := Params.spec) : Word :=
  match r with
  | .state => p.keep (p.fields.state.put s.rstate.code.toNat)
  | .eventsReady => s.radio.eventsReady
  | .eventsAddress => s.radio.eventsAddress
  | .eventsPayload => s.radio.eventsPayload
  | .eventsEnd => s.radio.eventsEnd
  | .shorts => s.radio.shorts
  | .crcStatus => s.radio.crcStatus
  | .rxMatch => s.radio.rxMatch
  | .rxCrc => s.radio.rxCrc
  | .dai => s.radio.dai
  | .packetPtr => s.radio.packetPtr
  | .frequency => s.radio.frequency
  | .txPower => s.radio.txPower
  | .mode => s.radio.mode
  | .pcnf0 => s.radio.pcnf0
  | .pcnf1 => s.radio.pcnf1
  | .base0 => s.radio.base0
  | .base1 => s.radio.base1
  | .prefix0 => s.radio.prefix0
  | .prefix1 => s.radio.prefix1
  | .txAddress => s.radio.txAddress
  | .rxAddresses => s.radio.rxAddresses
  | .crcCnf => s.radio.crcCnf
  | .crcPoly => s.radio.crcPoly
  | .crcInit => s.radio.crcInit
  | .tifs => s.radio.tifs
  | .rssiSample => s.radio.rssiSample
  | .power => s.radio.power
  | .tasksTxen => s.tasks.txen
  | .tasksRxen => s.tasks.rxen
  | .tasksStart => s.tasks.start
  | .tasksStop => s.tasks.stop
  | .tasksDisable => s.tasks.disable
  | .tasksRssiStart => s.tasks.rssiStart
  | .tasksRssiStop => s.tasks.rssiStop
  | .tasksBcStart => s.tasks.bcStart
  | .tasksBcStop => s.tasks.bcStop
  | .tasksEdStart => s.tasks.edStart
  | .tasksEdStop => s.tasks.edStop
  | .tasksCcaStart => s.tasks.ccaStart
  | .tasksCcaStop => s.tasks.ccaStop

/-- TXEN raised (rule R161). -/
def raiseTxen (s : State) : State := { s with pending := { s.pending with txen := true } }

/-- RXEN raised (rule R161). -/
def raiseRxen (s : State) : State := { s with pending := { s.pending with rxen := true } }

/-- START raised (rule R161): pending, or acted on at the write under `P_START_VISIBLE_ATOMIC`. -/
def raiseStart (atomic : Bool) (s : State) (p : Params := Params.spec) : State :=
  if atomic then acceptStart s p else { s with pending := { s.pending with start := true } }

/-- A write of a task register (rules R34, R66): 0 has no effect; any other value leaves in it a word that the spec does
not specify, a free one (log 17); 1 triggers the task. -/
def taskWrite (v : Word) (put : Word → TaskRegs → TaskRegs) (trigger : State → State) (s : State)
    (p : Params := Params.spec) : State :=
  if v = 0 then s
  else
    let t := { s with
      tasks := { put (p.keep (Config.taskRead s.tasks.writes)) s.tasks with writes := s.tasks.writes + 1 } }
    if v = 1 then trigger t else t

/-- An event register after a write: 0 clears it (rule R35); the spec gives no other write an effect (log 18). -/
def writeEvent (old v : Word) : Word := if v = 0 then 0 else old

/-- What a write does with the value the register keeps (rules R12, R66): a task register is triggered by 1, not by 0
(rule R34); the tasks the block never writes raise nothing (rules R47, R160; log 17); an event register is cleared by 0
(rule R35); a read-only register keeps its value (log 18); any other register stores the word (rule R72). -/
def regStore (r : Reg) (v : Word) (s : State) (p : Params := Params.spec) : State :=
  match r with
  | .tasksTxen => taskWrite v (fun w k => { k with txen := w }) raiseTxen s p
  | .tasksRxen => taskWrite v (fun w k => { k with rxen := w }) raiseRxen s p
  | .tasksStart => taskWrite v (fun w k => { k with start := w }) (raiseStart p.startVisibleAtomic · p) s p
  | .tasksStop => taskWrite v (fun w k => { k with stop := w }) id s p
  | .tasksDisable => taskWrite v (fun w k => { k with disable := w }) id s p
  | .tasksRssiStart => taskWrite v (fun w k => { k with rssiStart := w }) id s p
  | .tasksRssiStop => taskWrite v (fun w k => { k with rssiStop := w }) id s p
  | .tasksBcStart => taskWrite v (fun w k => { k with bcStart := w }) id s p
  | .tasksBcStop => taskWrite v (fun w k => { k with bcStop := w }) id s p
  | .tasksEdStart => taskWrite v (fun w k => { k with edStart := w }) id s p
  | .tasksEdStop => taskWrite v (fun w k => { k with edStop := w }) id s p
  | .tasksCcaStart => taskWrite v (fun w k => { k with ccaStart := w }) id s p
  | .tasksCcaStop => taskWrite v (fun w k => { k with ccaStop := w }) id s p
  | .eventsReady => { s with radio := { s.radio with eventsReady := writeEvent s.radio.eventsReady v } }
  | .eventsAddress => { s with radio := { s.radio with eventsAddress := writeEvent s.radio.eventsAddress v } }
  | .eventsPayload => { s with radio := { s.radio with eventsPayload := writeEvent s.radio.eventsPayload v } }
  | .eventsEnd => { s with radio := { s.radio with eventsEnd := writeEvent s.radio.eventsEnd v } }
  | .crcStatus => s
  | .rxMatch => s
  | .rxCrc => s
  | .dai => s
  | .rssiSample => s
  | .state => s
  | .shorts => { s with radio := { s.radio with shorts := v } }
  | .packetPtr => { s with radio := { s.radio with packetPtr := v } }
  | .frequency => { s with radio := { s.radio with frequency := v } }
  | .txPower => { s with radio := { s.radio with txPower := v } }
  | .mode => { s with radio := { s.radio with mode := v } }
  | .pcnf0 => { s with radio := { s.radio with pcnf0 := v } }
  | .pcnf1 => { s with radio := { s.radio with pcnf1 := v } }
  | .base0 => { s with radio := { s.radio with base0 := v } }
  | .base1 => { s with radio := { s.radio with base1 := v } }
  | .prefix0 => { s with radio := { s.radio with prefix0 := v } }
  | .prefix1 => { s with radio := { s.radio with prefix1 := v } }
  | .txAddress => { s with radio := { s.radio with txAddress := v } }
  | .rxAddresses => { s with radio := { s.radio with rxAddresses := v } }
  | .crcCnf => { s with radio := { s.radio with crcCnf := v } }
  | .crcPoly => { s with radio := { s.radio with crcPoly := v } }
  | .crcInit => { s with radio := { s.radio with crcInit := v } }
  | .tifs => { s with radio := { s.radio with tifs := v } }
  | .power => { s with radio := { s.radio with power := v } }

/-- `RegWrite` (rules R12, R66): the register takes of the 32-bit value written the bits it is wide (rule R7), which on
this hardware is the whole word (rule R72). -/
def regWrite (r : Reg) (v : Word) (s : State) (p : Params := Params.spec) : State := regStore r (p.keep v) s p

/-- `FicrRead(off)` (rules R12, R46), at the offset of an identity word. -/
def ficrRead (w : FicrWord) (s : State) : Word :=
  match w with
  | .devidHi => s.ficrHi
  | .devidLo => s.ficrLo

/-! ## The packet buffer and the sink -/

/-- The buffer indices a write touches. -/
def touched (a : Nat) (bs : Bytes) : List Nat := (List.range bs.length).map fun i => a + i

/-- The controller's bytes stored in the buffer; during a transmission they are remembered as written since it began
(rule R165). -/
def bufStore (a : Nat) (bs : Bytes) (s : State) : State :=
  { s with
    buf := Memory.writeBytes s.buf a bs
    txDirty := if s.rstate = .tx then touched a bs ++ s.txDirty else s.txDirty }

/-- `MemWrite(addr, n, v)` (rule R12), then the rest of the line. -/
def memWrite (a : Nat) (bs : Bytes) (s : State) (rest : State → Out) (p : Params := Params.spec) : Out :=
  if a + bs.length ≤ p.bufCap then rest (bufStore a bs s) else .fault .bufferRange

/-- `MemRead(addr, n)` (rule R12), then the rest of the line. -/
def memRead (a n : Nat) (s : State) (rest : Bytes → Out) (p : Params := Params.spec) : Out :=
  if a + n ≤ p.bufCap then rest (Memory.readBytes s.buf a n) else .fault .bufferRange

/-- `Log(m)` (rules R12, R268). -/
def log (m : LogMsg) (s : State) : State := { s with sink := s.sink ++ [m] }

/-! ## The sequencer and RES -/

/-- The local values at a command's start: its sampled operands (rule R68) and an otherwise empty frame (rule R23;
log 32: return points at the entry, lengths and words zero). -/
def Frame.start (ops : HostRegs) : Frame where
  ops := ops
  hi := 0
  lo := 0
  stateRead := 0
  txBytes := []
  txOnAir := 0
  txRet := .entry
  rxLen := 0
  rxBytes := []
  rxRet := .entry
  mac := none
  nwk := .notForwarded
  onceRet := .entry
  waitSeq := 0
  waitBytes := []
  k := 0
  acked := false
  waitRet := .entry

/-- The start step of a command (rules R23, R68, R255): Running at the first line, operands sampled, RES BUSY. -/
def startCommand (s : State) : State :=
  { s with
    seqr := .running { op := s.host.cmd.extractLsb' 0 8, line := .entry, frame := Frame.start s.host }
    res := some { status := .busy, halt := none, value := none, session := s.session } }

/-- The step moves to a line of the running command (rules R22, R23). -/
def goto (r : Run) (l : Line) (s : State) : State := { s with seqr := .running { r with line := l } }

/-- The step moves to a line with local values changed (rules R22, R23). -/
def gotoWith (r : Run) (l : Line) (f : Frame) (s : State) : State :=
  { s with seqr := .running { r with line := l, frame := f } }

/-- `post Ok(v)` (rule R255). -/
def post (v : Option Value) (s : State) : State :=
  { s with seqr := .idle, res := some { status := .ok, halt := none, value := v, session := s.session } }

/-- `raise E` (rule R255) with the value the command wrote before it, none for most. -/
def raiseError (e : Status) (v : Option Value) (s : State) : State :=
  { s with seqr := .idle, res := some { status := e, halt := none, value := v, session := s.session } }

/-- `Halt(r)` (rule R257): the block stops for good; `seqr` keeps its value, unread. -/
def halt (r : HaltReason) (s : State) : State :=
  { s with
    halted := some r
    res := some { status := .halted, halt := some r, value := none, session := s.session } }

/-- A controller step of a command: none while halted (rule R24); the start step while Idle (rule R23); the line at the
sequencer's position while Running (rule R23). -/
def command (s : State) (line : Run → Out) : Out :=
  match s.halted, s.seqr with
  | some _, _ => .next s
  | none, .idle => .next (startCommand s)
  | none, .running r => line r

/-- The construction test, a command's first line (rule R258). -/
def needConstructed (s : State) (rest : Out) : Out :=
  if s.constructed then rest else .next (halt .notConstructed s)

end Sys2Proof.Machine
end

