-- ==== Sys2Proof/Machine/MacCodec.lean ====
section
/-! DEFINITION. The MAC frame codec (41_mac_codec.md): encodeFrame, decodeFrame and the commands ENC_BEACON_REQ,
ENC_ASSOC_REQ, ENC_DATA_REQ, ENC_ACK, MAC_DECODE, each of one controller step (rule R14). The wire format is
30_encoding.md Part B. -/

namespace Sys2Proof.Machine

/-! ## Helpers (rule R171) -/

/-- `modeOf` (rules R93, R171). -/
def modeOf : Addr → BitVec 2
  | .none => 0
  | .short _ _ => 2
  | .extended _ _ => 3

/-- `panOf` (rule R171); an absent address has none, and no rule asks for it. -/
def panOf : Addr → Half
  | .none => 0
  | .short p _ => p
  | .extended p _ => p

/-- `addrBytes` (rule R171). -/
def addrBytes : Addr → Bytes
  | .none => []
  | .short _ a => le16 a
  | .extended _ a => le64 a

/-- `typeCode` (rules R92, R171). -/
def typeCode : FrameType → BitVec 3
  | .beacon => 0
  | .data => 1
  | .ack => 2
  | .command => 3

/-- `statusCode` (rules R100, R171). -/
def statusCode : AssocStatus → Byte
  | .successful => 0x00
  | .panAtCapacity => 0x01
  | .panAccessDenied => 0x02

/-- `contentBytes` (rules R97, R98, R171). -/
def contentBytes : Content → Bytes
  | .beaconRequest => [0x07]
  | .associationRequest c => [0x01, c]
  | .associationResponse s t => 0x02 :: (le16 s ++ [statusCode t])
  | .dataRequest => [0x04]
  | .dataContent => []
  | .beaconContent => []
  | .ackContent => []

/-- A record is consistent when its content matches its frame type (rule R170). -/
def MacFrame.consistent (m : MacFrame) : Bool :=
  match m.frameType, m.content with
  | .data, .dataContent => true
  | .beacon, .beaconContent => true
  | .ack, .ackContent => true
  | .command, .beaconRequest => true
  | .command, .associationRequest _ => true
  | .command, .associationResponse _ _ => true
  | .command, .dataRequest => true
  | _, _ => false

/-- A frame-control bit of value 0 or 1 (`b` of rule R172). -/
def bit (b : Bool) : BitVec 1 := if b then 1 else 0

/-! ## encodeFrame (rule R172) -/

/-- The frame control word (rules R91, R172), its fields from bit 15 down, the reserved bits 9:7 zero. -/
def frameControl (m : MacFrame) : Half :=
  modeOf m.src ++ m.frameVersion ++ modeOf m.dst ++ (0#3) ++ bit m.panIdCompress ++ bit m.ackRequest
    ++ bit m.framePending ++ bit m.security ++ typeCode m.frameType

/-- Whether the source PAN is on the wire (rule R95). -/
def srcPanPresent (m : MacFrame) : Bool := !(m.panIdCompress && decide (m.dst ≠ .none))

/-- The destination fields (rule R172). -/
def dstBytes (m : MacFrame) : Bytes := if m.dst = .none then [] else le16 (panOf m.dst) ++ addrBytes m.dst

/-- The source fields (rule R172). -/
def srcBytes (m : MacFrame) : Bytes :=
  if m.src = .none then []
  else (if srcPanPresent m then le16 (panOf m.src) else []) ++ addrBytes m.src

/-- `encodeFrame` (rule R172). -/
def encodeFrame (m : MacFrame) : Bytes :=
  le16 (frameControl m) ++ (m.seq :: (dstBytes m ++ (srcBytes m ++ (contentBytes m.content ++ m.payload))))

/-! ## decodeFrame (rule R173) -/

/-- The frame type's name (rule R92); the reserved values 4 to 7 have none. -/
def frameTypeOf (t : BitVec 3) : Option FrameType :=
  match t.toNat with
  | 0 => some .beacon
  | 1 => some .data
  | 2 => some .ack
  | 3 => some .command
  | _ => none

/-- The association status with a code (rule R100). -/
def statusOf (c : Byte) : Option AssocStatus :=
  match c.toNat with
  | 0 => some .successful
  | 1 => some .panAtCapacity
  | 2 => some .panAccessDenied
  | _ => none

/-- `fc[11:10]` (rule R91). -/
def fcDstMode (fc : Half) : BitVec 2 := fc.extractLsb' 10 2

/-- `fc[13:12]` (rule R91). -/
def fcVersion (fc : Half) : BitVec 2 := fc.extractLsb' 12 2

/-- `fc[15:14]` (rule R91). -/
def fcSrcMode (fc : Half) : BitVec 2 := fc.extractLsb' 14 2

/-- The frame-control values, beside a reserved frame type, that rule R173 rejects: security enabled, a reserved
addressing mode, a version not accepted, PAN ID compression with a source and no destination. -/
def fcRejected (fc : Half) (p : Params := Params.spec) : Bool :=
  fc.getLsbD 3 || decide (fcDstMode fc = 1) || decide (fcSrcMode fc = 1)
    || !(p.acceptedVersions.contains (fcVersion fc))
    || (fc.getLsbD 6 && decide (fcDstMode fc = 0) && decide (fcSrcMode fc ≠ 0))

/-- An address of a present mode under a PAN (rule R173). -/
def takeAddr (mode : BitVec 2) (pan : Half) (B : Bytes) : Option (Addr × Bytes) :=
  if mode = 2 then (takeU16 B).map fun r => (.short pan r.1, r.2)
  else (takeU64 B).map fun r => (.extended pan r.1, r.2)

/-- The destination fields (rule R173). -/
def takeDst (dm : BitVec 2) (B : Bytes) : Option (Addr × Bytes) :=
  if dm = 0 then some (.none, B) else (takeU16 B).bind fun r => takeAddr dm r.1 r.2

/-- The source fields (rule R173): under PAN ID compression the source PAN is the destination PAN. -/
def takeSrc (sm : BitVec 2) (pic : Bool) (dst : Addr) (B : Bytes) : Option (Addr × Bytes) :=
  if sm = 0 then some (.none, B)
  else if pic then takeAddr sm (panOf dst) B
  else (takeU16 B).bind fun r => takeAddr sm r.1 r.2

/-- The content of a command frame from its identifier on (rules R97, R98, R173). -/
def takeCommand (id : Byte) (B : Bytes) : Option (Content × Bytes) :=
  match id.toNat with
  | 0x01 => (takeU8 B).map fun r => (.associationRequest r.1, r.2)
  | 0x02 =>
    (takeU16 B).bind fun s => (takeU8 s.2).bind fun t =>
      (statusOf t.1).map fun st => (.associationResponse s.1 st, t.2)
  | 0x04 => some (.dataRequest, B)
  | 0x07 => some (.beaconRequest, B)
  | _ => none

/-- The content by frame type (rule R173). -/
def takeContent (t : FrameType) (B : Bytes) : Option (Content × Bytes) :=
  match t with
  | .beacon => some (.beaconContent, B)
  | .data => some (.dataContent, B)
  | .ack => some (.ackContent, B)
  | .command => (takeU8 B).bind fun r => takeCommand r.1 r.2

/-- `decodeFrame` after its frame-control tests (rule R173): sequence number, addresses, content, payload. -/
def decodeBody (fc : Half) (t : FrameType) (B : Bytes) : Option MacFrame :=
  (takeU8 B).bind fun sq =>
  (takeDst (fcDstMode fc) sq.2).bind fun d =>
  (takeSrc (fcSrcMode fc) (fc.getLsbD 6) d.1 d.2).bind fun a =>
  (takeContent t a.2).map fun c =>
    { frameType := t
      security := false
      framePending := fc.getLsbD 4
      ackRequest := fc.getLsbD 5
      panIdCompress := fc.getLsbD 6
      frameVersion := fcVersion fc
      seq := sq.1
      dst := d.1
      src := a.1
      content := c.1
      payload := c.2 }

/-- `decodeFrame` (rule R173): `some m` for `Ok m`, `none` for `Err ParseError`. -/
def decodeFrame (B : Bytes) (p : Params := Params.spec) : Option MacFrame :=
  (takeU16 B).bind fun h =>
  (frameTypeOf (h.1.extractLsb' 0 3)).bind fun t =>
  if fcRejected h.1 p then none else decodeBody h.1 t h.2

/-! ## The records the block builds -/

/-- The beacon request's record (rule R175). -/
def beaconRequestRecord (seq : Byte) : MacFrame where
  frameType := .command
  security := false
  framePending := false
  ackRequest := false
  panIdCompress := false
  frameVersion := 0
  seq := seq
  dst := .short 0xffff 0xffff
  src := .none
  content := .beaconRequest
  payload := []

/-- The association request's record (rule R176). -/
def assocRequestRecord (seq : Byte) (srcExtended : Dword) (dstPan dstShort : Half) (capabilities : Byte)
    (p : Params := Params.spec) : MacFrame where
  frameType := .command
  security := false
  framePending := false
  ackRequest := true
  panIdCompress := false
  frameVersion := 0
  seq := seq
  dst := .short dstPan dstShort
  src := .extended p.assocSrcPan srcExtended
  content := .associationRequest capabilities
  payload := []

/-- The data request's record (rule R177) under a value of `P_DATAREQ_PANID_COMPRESS`. -/
def dataRequestRecord (compress : Bool) (seq : Byte) (srcPan : Half) (srcExtended : Dword)
    (dstPan dstShort : Half) : MacFrame where
  frameType := .command
  security := false
  framePending := false
  ackRequest := true
  panIdCompress := compress
  frameVersion := 0
  seq := seq
  dst := .short dstPan dstShort
  src := .extended (if compress then dstPan else srcPan) srcExtended
  content := .dataRequest
  payload := []

/-- The acknowledgement's record (rule R178). -/
def ackRecord (seq : Byte) : MacFrame where
  frameType := .ack
  security := false
  framePending := false
  ackRequest := false
  panIdCompress := false
  frameVersion := 0
  seq := seq
  dst := .none
  src := .none
  content := .ackContent
  payload := []

/-! ## Commands -/

/-- A command of one controller step (rule R14). -/
def oneStep (s : State) (result : Run → State) : Out :=
  command s fun r =>
    match r.line with
    | .entry => .next (result r)
    | _ => .fault .strayLine

/-- `post Ok` of an encoded frame. -/
def postFrame (m : MacFrame) (s : State) : State := post (some (.bytes (encodeFrame m))) s

/-- `post Ok` of a parse's value, or `raise PARSE_ERROR` (rule R252). -/
def postParsed (v : Option Value) (s : State) : State :=
  match v with
  | some x => post (some x) s
  | none => raiseError .parseError none s

/-- ENC_BEACON_REQ (rule R175). -/
def execEncBeaconReq (seq : Byte) (s : State) : Out :=
  oneStep s fun _ => postFrame (beaconRequestRecord seq) s

/-- ENC_ASSOC_REQ (rule R176), under parameters. -/
def runEncAssocReq (p : Params) (seq : Byte) (s : State) : Out :=
  oneStep s fun r =>
    postFrame (assocRequestRecord seq r.frame.ops.ext r.frame.ops.dpan r.frame.ops.dshort r.frame.ops.cap p) s

/-- ENC_ASSOC_REQ (rule R176). -/
def execEncAssocReq (seq : Byte) (s : State) : Out := runEncAssocReq Params.spec seq s

/-- ENC_DATA_REQ (rule R177), under parameters. -/
def runEncDataReq (p : Params) (seq : Byte) (s : State) : Out :=
  oneStep s fun r =>
    postFrame (dataRequestRecord p.dataReqCompress seq r.frame.ops.span r.frame.ops.ext r.frame.ops.dpan
      r.frame.ops.dshort) s

/-- ENC_DATA_REQ (rule R177). -/
def execEncDataReq (seq : Byte) (s : State) : Out := runEncDataReq Params.spec seq s

/-- ENC_ACK (rule R178). -/
def execEncAck (seq : Byte) (s : State) : Out := oneStep s fun _ => postFrame (ackRecord seq) s

/-- MAC_DECODE (rule R179), under parameters. -/
def runMacDecode (p : Params) (s : State) : Out :=
  oneStep s fun r => postParsed ((decodeFrame r.frame.ops.inp p).map Value.mac) s

/-- MAC_DECODE (rule R179). -/
def execMacDecode (s : State) : Out := runMacDecode Params.spec s

end Sys2Proof.Machine
end

