-- ==== Sys2Proof/Machine/NwkCodec.lean ====
section
/-! DEFINITION. The Zigbee NWK codec (43_nwk_codec.md): parseFCF, parseSecHdr, parsePacket and the commands
NWK_PARSE_FCF, NWK_PARSE_PACKET, NWK_PARSE_SECHDR, each of one controller step (rule R14). The wire format is
30_encoding.md Part C. -/

namespace Sys2Proof.Machine

/-! ## Frame control -/

/-- The NWK frame type (rules R111, R231). -/
def nwkFrameTypeOf (t : BitVec 2) : NwkFrameType :=
  match t.toNat with
  | 0 => .nwkData
  | 1 => .nwkCommand
  | 2 => .nwkReserved
  | _ => .interPan

/-- The discover-route value (rules R111, R231). -/
def discoverRouteOf (d : BitVec 2) : DiscoverRoute :=
  match d.toNat with
  | 0 => .suppress
  | 1 => .enable
  | 2 => .reserved2
  | _ => .reserved3

/-- `parseFCF` (rule R231). -/
def parseFcf (w : Half) : FrameControlField where
  frameType := nwkFrameTypeOf (w.extractLsb' 0 2)
  protocolVersion := w.extractLsb' 2 4
  discoverRoute := discoverRouteOf (w.extractLsb' 6 2)
  multicast := w.getLsbD 8
  security := w.getLsbD 9
  sourceRoute := w.getLsbD 10
  destination := w.getLsbD 11
  sourceAddress := w.getLsbD 12
  endDeviceInitiator := w.getLsbD 13

/-! ## Security header -/

/-- The key identifier, bits 4:3 of the control byte (rules R114, R234). -/
def keyIdentifierOf (c : Byte) : KeyIdentifier :=
  match (c.extractLsb' 3 2).toNat with
  | 0 => .keyData
  | 1 => .keyNetwork
  | 2 => .keyTransport
  | _ => .keyLoad

/-- The extended-nonce flag, bit 5 of the control byte (rules R114, R234). -/
def extendedNonceOf (c : Byte) : Bool := c.getLsbD 5

/-- The MIC: the last `P_MIC_LEN` bytes of the whole packet (rules R115, R234). -/
def micOf (B : Bytes) (p : Params := Params.spec) : Bytes := B.drop (B.length - p.micLen)

/-- A security header's length: 6 or 14 bytes (rule R113). -/
def secHdrLength (extendedNonce : Bool) : Nat := if extendedNonce then 14 else 6

/-- `parseSecHdr(B, p)` (rule R234): `some (h, p')` for `Ok (h, p')`, `none` for `Err ParseError`. -/
def parseSecHdr (B : Bytes) (start : Nat) (p : Params := Params.spec) :
    Option (SecurityHeader × Nat) :=
  (takeU8 (B.drop start)).bind fun c =>
  (takeU32 c.2).bind fun fcnt =>
  (takeIf (extendedNonceOf c.1) takeU64 fcnt.2).bind fun xsrc =>
  (takeU8 xsrc.2).bind fun ksn =>
  if B.length < p.micLen then none
  else some
    ({ keyIdentifier := keyIdentifierOf c.1
       extendedNonce := extendedNonceOf c.1
       usingEncryption := true
       micLength := p.micLen
       frameCounter := fcnt.1
       extendedSource := xsrc.1
       keySequence := ksn.1
       mic := micOf B p },
     start + secHdrLength (extendedNonceOf c.1))

/-! ## Packet -/

/-- The source-route subframe (rules R112, R237): relay count `n`, relay index, `n` relay bytes, all discarded. -/
def skipSourceRoute (present : Bool) (B : Bytes) : Option Bytes :=
  if present then (takeU8 B).bind fun n => (takeU8 n.2).bind fun i => skipBytes n.1.toNat i.2
  else some B

/-- `parsePacket`'s last part (rule R237): the security header at a cursor of the whole packet `B`, if present,
and the payload. -/
def parseTail (secured : Bool) (B : Bytes) (cursor : Nat) (p : Params := Params.spec) :
    Option (Option SecurityHeader × Bytes) :=
  if secured then
    (parseSecHdr B cursor p).bind fun h =>
      if B.length - h.2 < p.micLen then none
      else some (some h.1, (B.drop h.2).take (B.length - h.2 - p.micLen))
  else some (none, B.drop cursor)

/-- `parsePacket` (rule R237): `some f` for `Ok f`, `none` for `Err ParseError`. -/
def parsePacket (B : Bytes) (p : Params := Params.spec) : Option NwkFrame :=
  (takeU16 B).bind fun fcw =>
  (takeU16 fcw.2).bind fun dst =>
  (takeU16 dst.2).bind fun src =>
  (takeU8 src.2).bind fun radius =>
  (takeU8 radius.2).bind fun seq =>
  (takeIf (parseFcf fcw.1).destination takeU64 seq.2).bind fun extDst =>
  (takeIf (parseFcf fcw.1).sourceAddress takeU64 extDst.2).bind fun extSrc =>
  (takeIf (parseFcf fcw.1).multicast takeU8 extSrc.2).bind fun mc =>
  (skipSourceRoute (parseFcf fcw.1).sourceRoute mc.2).bind fun rest =>
  (parseTail (parseFcf fcw.1).security B (B.length - rest.length) p).map fun t =>
    { fcf := parseFcf fcw.1
      dst := dst.1
      src := src.1
      radius := radius.1
      seq := seq.1
      extDst := extDst.1
      extSrc := extSrc.1
      multicastControl := mc.1
      securityHeader := t.1
      payload := t.2 }

/-! ## Commands -/

/-- NWK_PARSE_FCF (rule R232). -/
def execNwkParseFcf (fcw : Half) (s : State) : Out := oneStep s fun _ => post (some (.fcf (parseFcf fcw))) s

/-- NWK_PARSE_PACKET (rule R238), under parameters. -/
def runNwkParsePacket (p : Params) (s : State) : Out :=
  oneStep s fun r => postParsed ((parsePacket r.frame.ops.inp p).map Value.nwk) s

/-- NWK_PARSE_PACKET (rule R238). -/
def execNwkParsePacket (s : State) : Out := runNwkParsePacket Params.spec s

/-- A security header at a start position, which must not lie past the end (rule R235). -/
def parseSecHdrAt (B : Bytes) (start : Nat) (p : Params := Params.spec) :
    Option (SecurityHeader × Nat) :=
  if B.length < start then none else parseSecHdr B start p

/-- NWK_PARSE_SECHDR (rule R235), under parameters. -/
def runNwkParseSechdr (p : Params) (start : Nat) (s : State) : Out :=
  oneStep s fun r =>
    postParsed ((parseSecHdrAt r.frame.ops.inp start p).map fun h => Value.securityHeader h.1 h.2) s

/-- NWK_PARSE_SECHDR (rule R235). -/
def execNwkParseSechdr (start : Nat) (s : State) : Out := runNwkParseSechdr Params.spec start s

end Sys2Proof.Machine
end

