-- ==== Sys2Proof/Machine/RadioDriver.lean ====
section
/-! DEFINITION. The radio controller (40_radio_driver.md): Poll, TransmitBlocking, ReceiveBlocking and the commands
CONSTRUCT, CONFIGURE, TRANSMIT, RECEIVE. Each function gives one line of pseudocode, which is one controller step
(rule R69); a line that only computes local values, a call and a return are part of the line they lead to (log 19). -/

namespace Sys2Proof.Machine

/-! ## Polling -/

/-- One read of `Poll(STATE = want)` (rules R130, R131, R132): on to the next line if STATE shows the state wanted,
else the same line again. -/
def pollStep (want : RadioState) (r : Run) (next : Line) (s : State) (p : Params := Params.spec) : State :=
  if shows (regRead .state s p) want p then goto r next s else goto r r.line s

/-! ## Blocking transmit -/

/-- The call of `TransmitBlocking(bytes, onAirLength)` (rule R137), to return to the line `ret`. -/
def callTransmit (bytes : Bytes) (onAir : Byte) (ret : Line) (r : Run) (f : Frame) (s : State) : State :=
  gotoWith r (.tx .check) { f with txBytes := bytes, txOnAir := onAir, txRet := ret } s

/-- The lines of `TransmitBlocking` (rule R137). -/
def txStep (l : TxLine) (r : Run) (s : State) (p : Params := Params.spec) : Out :=
  match l with
  | .check =>
    if p.bufCap - 1 < r.frame.txBytes.length then .next (halt .bufferOverflow s)
    else .next (goto r (.tx .writeLen) s)
  | .writeLen => memWrite 0 [r.frame.txOnAir] s (fun t => .next (goto r (.tx .writeBytes) t)) p
  | .writeBytes => memWrite 1 r.frame.txBytes s (fun t => .next (goto r (.tx .shorts) t)) p
  | .shorts => .next (goto r (.tx .readState) (regWrite .shorts 0 s p))
  | .readState => .next (gotoWith r (.tx .enable) { r.frame with stateRead := regRead .state s p } s)
  | .enable =>
    if shows r.frame.stateRead .txIdle p then .next (goto r (.tx .pollReady) s)
    else .next (goto r (.tx .pollReady) (regWrite .tasksTxen 1 s p))
  | .pollReady => .next (pollStep .txIdle r (.tx .start) s p)
  | .start => .next (goto r (.tx .pollDone) (regWrite .tasksStart 1 s p))
  | .pollDone => .next (pollStep .txIdle r r.frame.txRet s p)

/-! ## Blocking receive -/

/-- The call of `ReceiveBlocking()` (rule R138), to return to the line `ret`. -/
def callReceive (ret : Line) (r : Run) (f : Frame) (s : State) : State :=
  gotoWith r (.rx .shorts) { f with rxRet := ret } s

/-- The lines of `ReceiveBlocking` (rule R138). -/
def rxStep (l : RxLine) (r : Run) (s : State) (p : Params := Params.spec) : Out :=
  match l with
  | .shorts => .next (goto r (.rx .readState) (regWrite .shorts 0 s p))
  | .readState => .next (gotoWith r (.rx .enable) { r.frame with stateRead := regRead .state s p } s)
  | .enable =>
    if shows r.frame.stateRead .rxIdle p then .next (goto r (.rx .pollReady) s)
    else .next (goto r (.rx .pollReady) (regWrite .tasksRxen 1 s p))
  | .pollReady => .next (pollStep .rxIdle r (.rx .start) s p)
  | .start => .next (goto r (.rx .pollDone) (regWrite .tasksStart 1 s p))
  | .pollDone => .next (pollStep .rxIdle r (.rx .readLen) s p)
  | .readLen => 
    memRead 0 1 s (fun b => .next (gotoWith r (.rx .readFrame) { r.frame with rxLen := b.headD 0 } s)) p
  | .readFrame =>
    memRead 1 r.frame.rxLen.toNat s (fun b => .next (gotoWith r r.frame.rxRet { r.frame with rxBytes := b } s)) p

/-! ## Commands -/

/-- The lines of CONSTRUCT after its first (rule R133). -/
def constructStep (l : ConstructLine) (r : Run) (s : State) (p : Params := Params.spec) : State :=
  match l with
  | .readHi => gotoWith r (.construct .readLo) { r.frame with hi := ficrRead .devidHi s } s
  | .readLo => gotoWith r (.construct .setExtended) { r.frame with lo := ficrRead .devidLo s } s
  | .setExtended =>
    goto r (.construct .setPacketPtr) { s with ownExtended := joinIdentity r.frame.hi r.frame.lo }
  | .setPacketPtr => goto r (.construct .setPcnf1) (regWrite .packetPtr p.bufPointer s p)
  | .setPcnf1 => goto r (.construct .initSession) (regWrite .pcnf1 (p.fields.maxlen.put p.maxLen) s p)
  | .initSession => goto r (.construct .setConstructed) { s with session := Session.reset }
  | .setConstructed => goto r .finish { s with constructed := true }

/-- CONSTRUCT (rule R133), under parameters. -/
def runConstruct (p : Params) (s : State) : Out :=
  command s fun r =>
    match r.line with
    | .entry =>
      if s.constructed then .next (halt .alreadyConstructed s) else .next (goto r (.construct .readHi) s)
    | .construct l => .next (constructStep l r s p)
    | .finish => .next (post none s)
    | _ => .fault .strayLine

/-- CONSTRUCT (rule R133). -/
def execConstruct (s : State) : Out := runConstruct Params.spec s

/-- The lines of CONFIGURE after its first (rule R136). -/
def configureStep (f : Nat) (l : ConfigureLine) (r : Run) (s : State) (p : Params := Params.spec) :
    State :=
  match l with
  | .rangeTest => if freqValid f p then goto r (.configure .setFrequency) s else raiseError .rangeError none s
  | .setFrequency => goto r (.configure .setMode) (regWrite .frequency (freqEncode f p) s p)
  | .setMode => goto r (.configure .setPcnf0) (regWrite .mode r.frame.ops.mode s p)
  | .setPcnf0 => goto r (.configure .setCrcCnf) (regWrite .pcnf0 r.frame.ops.pcnf0 s p)
  | .setCrcCnf => goto r (.configure .setCrcPoly) (regWrite .crcCnf r.frame.ops.crccnf s p)
  | .setCrcPoly => goto r .finish (regWrite .crcPoly r.frame.ops.crcpoly s p)

/-- CONFIGURE (rule R136), under parameters. -/
def runConfigure (p : Params) (frequencyMHz : Nat) (s : State) : Out :=
  command s fun r =>
    match r.line with
    | .entry => needConstructed s (.next (goto r (.configure .rangeTest) s))
    | .configure l => .next (configureStep frequencyMHz l r s p)
    | .finish => .next (post none s)
    | _ => .fault .strayLine

/-- CONFIGURE (rule R136). -/
def execConfigure (frequencyMHz : Nat) (s : State) : Out := runConfigure Params.spec frequencyMHz s

/-- TRANSMIT (rule R139), under parameters. -/
def runTransmit (p : Params) (onAirLength : Byte) (s : State) : Out :=
  command s fun r =>
    match r.line with
    | .entry => needConstructed s (.next (callTransmit r.frame.ops.inp onAirLength .finish r r.frame s))
    | .tx l => txStep l r s p
    | .finish => .next (post none s)
    | _ => .fault .strayLine

/-- TRANSMIT (rule R139). -/
def execTransmit (onAirLength : Byte) (s : State) : Out := runTransmit Params.spec onAirLength s

/-- RECEIVE (rule R140), under parameters. -/
def runReceive (p : Params) (s : State) : Out :=
  command s fun r =>
    match r.line with
    | .entry => needConstructed s (.next (callReceive .finish r r.frame s))
    | .rx l => rxStep l r s p
    | .finish => .next (post (some (.received r.frame.rxLen r.frame.rxBytes)) s)
    | _ => .fault .strayLine

/-- RECEIVE (rule R140). -/
def execReceive (s : State) : Out := runReceive Params.spec s

end Sys2Proof.Machine
end

