-- ==== Sys2Proof/Machine/MacSession.lean ====
section
/-! DEFINITION. The MAC session engine (42_mac_session.md): the address match, dispatch, ReceiveOnceProc,
WriteAndExpectAckProc and the commands BROADCAST_BEACON, RECEIVE_ONCE, WRITE_EXPECT_ACK, ASSOCIATE. -/

namespace Sys2Proof.Machine

/-! ## Address match and dispatch -/

/-- `addressedToMe` (rule R200). -/
def addressedToMe (m : MacFrame) (s : State) : Bool :=
  match m.dst with
  | .none => false
  | .short _ a => decide (s.session.assignedShort = some a)
  | .extended _ a => s.session.extActive && decide (a = s.ownExtended)

/-- `dispatch` (rule R201). -/
def dispatch (m : MacFrame) (s : State) : State :=
  match m.content with
  | .associationResponse a _ => { s with session := { s.session with assignedShort := some a } }
  | _ => s

/-- `ackMatches` (rule R204). -/
def ackMatches (r : Option MacFrame) (seq : Byte) : Bool :=
  match r with
  | some m => decide (m.frameType = .ack) && decide (m.seq = seq)
  | none => false

/-- `B` of ReceiveOnceProc (rule R203): `F[0 .. max(L − P_RX_TRIM, 0))`. -/
def trimFcs (len : Byte) (frame : Bytes) (p : Params := Params.spec) : Bytes := frame.take (len.toNat - p.rxTrim)

/-- The NWK outcome of a forwarded payload (rule R202). -/
def nwkOutcomeOf (payload : Bytes) (p : Params := Params.spec) : NwkOutcome :=
  match parsePacket payload p with
  | some f => .parsed f
  | none => .parseError

/-! ## ReceiveOnceProc (rule R203) -/

/-- The call of `ReceiveOnceProc()`, to return to the line `ret`; its first line is ReceiveBlocking's. -/
def callOnce (ret : Line) (r : Run) (f : Frame) (s : State) : State :=
  callReceive (.once .decode) r { f with onceRet := ret } s

/-- The line after the reception: decode; on success, acknowledge if addressed and asked to, then dispatch. -/
def onceDecode (r : Run) (s : State) (p : Params := Params.spec) : State :=
  match decodeFrame (trimFcs r.frame.rxLen r.frame.rxBytes p) p with
  | none => gotoWith r (.once .logParse) { r.frame with mac := none, nwk := .notForwarded } s
  | some m =>
    let f := { r.frame with mac := some m, nwk := .notForwarded }
    if addressedToMe m s then
      if m.ackRequest then
        callTransmit (encodeFrame (ackRecord m.seq)) (onAirOf (encodeFrame (ackRecord m.seq)) p) (.once .dispatch) r f s
      else gotoWith r (.once .dispatch) f s
    else gotoWith r r.frame.onceRet f s

/-- The dispatch line; a Data frame goes on to the NWK codec (rules R201, R202). -/
def onceDispatch (r : Run) (s : State) : State :=
  match r.frame.mac with
  | none => goto r r.frame.onceRet s
  | some m =>
    if m.frameType = .data then goto r (.once .nwk) (dispatch m s) else goto r r.frame.onceRet (dispatch m s)

/-- The NWK line (rule R202); a failed parse is logged next. -/
def onceNwk (r : Run) (s : State) (p : Params := Params.spec) : State :=
  match r.frame.mac with
  | none => goto r r.frame.onceRet s
  | some m =>
    let f := { r.frame with nwk := nwkOutcomeOf m.payload p }
    if nwkOutcomeOf m.payload p = .parseError then gotoWith r (.once .logNwk) f s else gotoWith r r.frame.onceRet f s

/-- The lines of ReceiveOnceProc after its reception (rule R203). -/
def onceStep (l : OnceLine) (r : Run) (s : State) (p : Params := Params.spec) : State :=
  match l with
  | .decode => onceDecode r s p
  | .logParse => goto r r.frame.onceRet (log .msgParseError s)
  | .dispatch => onceDispatch r s
  | .nwk => onceNwk r s p
  | .logNwk => goto r r.frame.onceRet (log .msgNwkParseError s)

/-! ## WriteAndExpectAckProc (rule R205) -/

/-- The call of `WriteAndExpectAckProc(seq, bytes)`, to return to the line `ret`. -/
def callWait (seq : Byte) (bytes : Bytes) (ret : Line) (r : Run) (s : State) : State :=
  gotoWith r (.wait .check) { r.frame with waitSeq := seq, waitBytes := bytes, k := 0, waitRet := ret } s

/-- The lines of WriteAndExpectAckProc beside its calls (rule R205): the length test and the transmission; the loop's
test and an attempt; the attempt counted and matched. -/
def waitStep (l : WaitLine) (r : Run) (s : State) (p : Params := Params.spec) : State :=
  match l with
  | .check =>
    if p.maxLen - p.fcsLen < r.frame.waitBytes.length then halt .bufferOverflow s
    else callTransmit r.frame.waitBytes (onAirOf r.frame.waitBytes p) (.wait .loop) r r.frame s
  | .loop =>
    if r.frame.k < p.ackAttempts then callOnce (.wait .tally) r r.frame s
    else gotoWith r r.frame.waitRet { r.frame with acked := false } s
  | .tally =>
    if ackMatches r.frame.mac r.frame.waitSeq then
      gotoWith r r.frame.waitRet { r.frame with k := r.frame.k + 1, acked := true } s
    else gotoWith r (.wait .loop) { r.frame with k := r.frame.k + 1 } s

/-! ## Commands -/

/-- BROADCAST_BEACON (rule R210), under parameters. -/
def runBroadcastBeacon (p : Params) (s : State) : Out :=
  command s fun r =>
    match r.line with
    | .entry =>
      needConstructed s (.next (callTransmit (encodeFrame (beaconRequestRecord p.beaconSeq))
        (onAirOf (encodeFrame (beaconRequestRecord p.beaconSeq)) p) .finish r r.frame s))
    | .tx l => txStep l r s p
    | .finish => .next (post none s)
    | _ => .fault .strayLine

/-- BROADCAST_BEACON (rule R210). -/
def execBroadcastBeacon (s : State) : Out := runBroadcastBeacon Params.spec s

/-- RECEIVE_ONCE's last line (rule R211). -/
def finishReceiveOnce (r : Run) (s : State) : State :=
  match r.frame.mac with
  | some m => post (some (.macAndNwk m r.frame.nwk)) s
  | none => raiseError .parseError none s

/-- RECEIVE_ONCE (rule R211), under parameters. -/
def runReceiveOnce (p : Params) (s : State) : Out :=
  command s fun r =>
    match r.line with
    | .entry => needConstructed s (.next (callOnce .finish r r.frame s))
    | .rx l => rxStep l r s p
    | .tx l => txStep l r s p
    | .once l => .next (onceStep l r s p)
    | .finish => .next (finishReceiveOnce r s)
    | _ => .fault .strayLine

/-- RECEIVE_ONCE (rule R211). -/
def execReceiveOnce (s : State) : Out := runReceiveOnce Params.spec s

/-- WRITE_EXPECT_ACK's line after the wait (rule R212): post, or log the timeout. -/
def finishWait (seq : Byte) (r : Run) (s : State) : State :=
  if r.frame.acked then post none s else goto r .raiseTimeout (log (.msgAckTimeout seq) s)

/-- WRITE_EXPECT_ACK (rule R212), under parameters. -/
def runWriteExpectAck (p : Params) (seq : Byte) (s : State) : Out :=
  command s fun r =>
    match r.line with
    | .entry => needConstructed s (.next (callWait seq r.frame.ops.inp .finish r s))
    | .rx l => rxStep l r s p
    | .tx l => txStep l r s p
    | .once l => .next (onceStep l r s p)
    | .wait l => .next (waitStep l r s p)
    | .finish => .next (finishWait seq r s)
    | .raiseTimeout => .next (raiseError .protocolTimeout none s)
    | _ => .fault .strayLine

/-- WRITE_EXPECT_ACK (rule R212). -/
def execWriteExpectAck (seq : Byte) (s : State) : Out := runWriteExpectAck Params.spec seq s

/-- The association request ASSOCIATE sends (rules R176, R213). -/
def associateRequestBytes (r : Run) (s : State) (p : Params := Params.spec) : Bytes :=
  encodeFrame (assocRequestRecord p.assocSeq s.ownExtended r.frame.ops.dpan r.frame.ops.dshort r.frame.ops.cap p)

/-- The data request ASSOCIATE sends (rules R177, R213). -/
def associateDataRequestBytes (r : Run) (s : State) (p : Params := Params.spec) : Bytes :=
  encodeFrame (dataRequestRecord p.dataReqCompress p.dataReqSeq r.frame.ops.span s.ownExtended
    r.frame.ops.dpan r.frame.ops.dshort)

/-- The lines of ASSOCIATE beside its first and last (rule R213). A line that writes RES.value is one step with the
`raise` after it (log 20). -/
def assocStep (l : AssocLine) (r : Run) (s : State) (p : Params := Params.spec) : State :=
  match l with
  | .request => callWait p.assocSeq (associateRequestBytes r s p) (.assoc .afterRequest) r s
  | .afterRequest =>
    if r.frame.acked then goto r (.assoc .setAcked) { s with session := { s.session with extActive := true } }
    else goto r (.assoc .abort) (log .msgAssocTimeout s)
  | .setAcked => goto r (.assoc .logAcked) { s with session := { s.session with handshake := .assocAcked } }
  | .logAcked => goto r (.assoc .dataRequest) (log .msgAssocAcked s)
  | .dataRequest => callWait p.dataReqSeq (associateDataRequestBytes r s p) (.assoc .afterDataRequest) r s
  | .afterDataRequest =>
    if r.frame.acked then
      goto r (.assoc .logDataReqAcked) { s with session := { s.session with handshake := .dataReqAcked } }
    else goto r (.assoc .fail) (log .msgDataReqTimeout s)
  | .logDataReqAcked => goto r .finish (log .msgDataReqAcked s)
  | .abort => raiseError .protocolTimeout (some (.phases false false)) s
  | .fail => raiseError .protocolTimeout (some (.phases true false)) s

/-- ASSOCIATE (rule R213), under parameters. -/
def runAssociate (p : Params) (s : State) : Out :=
  command s fun r =>
    match r.line with
    | .entry => needConstructed s (.next (goto r (.assoc .request) s))
    | .rx l => rxStep l r s p
    | .tx l => txStep l r s p
    | .once l => .next (onceStep l r s p)
    | .wait l => .next (waitStep l r s p)
    | .assoc l => .next (assocStep l r s p)
    | .finish => .next (post (some (.phases true true)) s)
    | _ => .fault .strayLine

/-- ASSOCIATE (rule R213). -/
def execAssociate (s : State) : Out := runAssociate Params.spec s

end Sys2Proof.Machine
end

