-- ==== Sys2Proof/Machine/Dispatch.lean ====
section
/-! DEFINITION. One arm per command: the command's meaning, which is one controller step of its micro-program. -/

namespace Sys2Proof.Machine

def exec (i : Instr) (s : State) : Host.Outcome State Fault Refusal :=
  match i with
  | .construct => Sys2Proof.Machine.execConstruct s
  | .configure frequencyMHz => Sys2Proof.Machine.execConfigure frequencyMHz s
  | .transmit onAirLength => Sys2Proof.Machine.execTransmit onAirLength s
  | .receive => Sys2Proof.Machine.execReceive s
  | .encBeaconReq seq => Sys2Proof.Machine.execEncBeaconReq seq s
  | .encAssocReq seq => Sys2Proof.Machine.execEncAssocReq seq s
  | .encDataReq seq => Sys2Proof.Machine.execEncDataReq seq s
  | .encAck seq => Sys2Proof.Machine.execEncAck seq s
  | .macDecode => Sys2Proof.Machine.execMacDecode s
  | .broadcastBeacon => Sys2Proof.Machine.execBroadcastBeacon s
  | .receiveOnce => Sys2Proof.Machine.execReceiveOnce s
  | .writeExpectAck seq => Sys2Proof.Machine.execWriteExpectAck seq s
  | .associate => Sys2Proof.Machine.execAssociate s
  | .nwkParseFcf fcw => Sys2Proof.Machine.execNwkParseFcf fcw s
  | .nwkParsePacket => Sys2Proof.Machine.execNwkParsePacket s
  | .nwkParseSechdr start => Sys2Proof.Machine.execNwkParseSechdr start s

end Sys2Proof.Machine
end

