-- ==== Sys2Proof/Machine/Agents.lean ====
section
/-! DEFINITION. The host's and the controller's steps (rules R23, R69), and which agent moves next (logs 1, 2). -/

namespace Sys2Proof.Machine

/-- `exec` under parameters (rule R7): the same commands, with the parameters handed to each that depends on one. -/
def execWith (p : Params) (i : Instr) (s : State) : Out :=
  match i with
  | .construct => runConstruct p s
  | .configure frequencyMHz => runConfigure p frequencyMHz s
  | .transmit onAirLength => runTransmit p onAirLength s
  | .receive => runReceive p s
  | .encBeaconReq seq => execEncBeaconReq seq s
  | .encAssocReq seq => runEncAssocReq p seq s
  | .encDataReq seq => runEncDataReq p seq s
  | .encAck seq => execEncAck seq s
  | .macDecode => runMacDecode p s
  | .broadcastBeacon => runBroadcastBeacon p s
  | .receiveOnce => runReceiveOnce p s
  | .writeExpectAck seq => runWriteExpectAck p seq s
  | .associate => runAssociate p s
  | .nwkParseFcf fcw => execNwkParseFcf fcw s
  | .nwkParsePacket => runNwkParsePacket p s
  | .nwkParseSechdr start => runNwkParseSechdr p start s

/-- The host writes CMD (rules R23, R24): ignored while a command runs and while halted; else the command word is
decoded, an illegal one halts the block in its start step (rules R84, R259), and any other starts its command. -/
def writeCmd (w : Word) (s : State) (ex : Instr → State → Out := exec) : Out :=
  match s.halted, s.seqr with
  | none, .idle =>
    let t := { s with host := HostRegs.set s.host (.cmd w) }
    match decode w with
    | .command i => ex i t
    | .reject _ => .next (halt .illegalCommand t)
  | _, _ => .next s

/-- One register write of the host (rule R81). -/
def hostWrite (w : HostWrite) (s : State) (ex : Instr → State → Out := exec) : Out :=
  match w with
  | .cmd c => writeCmd c s ex
  | v => .next { s with host := HostRegs.set s.host v }

/-- The host's step: the next of its register writes; nothing if it has none (rule R281). -/
def hostStep (s : State) (ex : Instr → State → Out := exec) : Out :=
  match s.hostQ with
  | [] => .next s
  | w :: rest => hostWrite w { s with hostQ := rest } ex

/-- The controller's step (rules R23, R24, R281): none while halted or Idle; else the running command, read from the
sampled command word, performs its current line. -/
def controllerStep (s : State) (ex : Instr → State → Out := exec) : Out :=
  match s.halted, s.seqr with
  | none, .running r =>
    match decode r.frame.ops.cmd with
    | .command i => ex i s
    | .reject _ => .next (halt .illegalCommand s)
  | _, _ => .next s

/-- The prompt order of 95_test_vectors.md Part 3 (log 2): the radio takes a pending task and completes what it begins
before the controller's next line; the host writes when the controller has nothing to do. -/
def promptTurn (s : State) : Turn :=
  if s.pending.txen then .radio (.takeTxen true)
  else if s.pending.rxen then .radio (.takeRxen true)
  else if s.pending.start then .radio .takeStart
  else match s.rstate, s.airIn with
    | .txRampUp, _ => .radio .rampUp
    | .rxRampUp, _ => .radio .rampUp
    | .tx, _ => .radio .txEnd
    | .rx, _ :: _ => .radio .rxEnd
    | _, _ =>
      match s.halted, s.seqr with
      | none, .running _ => .controller
      | _, _ => .host

/-- The agent that moves next (log 1): the first of the listed turns, the prompt order when none is listed. -/
def nextTurn (s : State) : Turn × State :=
  match s.turns with
  | t :: rest => (t, { s with turns := rest })
  | [] => (promptTurn s, s)

/-- One step of the agent whose turn it is (rule R69). -/
def agentStep (t : Turn) (s : State) (p : Params := Params.spec) (ex : Instr → State → Out := exec) : Out :=
  match t with
  | .host => hostStep s ex
  | .controller => controllerStep s ex
  | .radio m => .next (radioStep m s p)

end Sys2Proof.Machine
end

