-- ==== Sys2Proof/Machine/Step.lean ====
section
/-! DEFINITION. One step of the interleaving (rule R69), and how a command word is put where the next step takes it. -/

namespace Sys2Proof.Machine

/-- One step of the run: the agent whose turn it is takes one atomic step (rule R69). -/
def step (s : State) : Host.Outcome State Fault Refusal := agentStep (nextTurn s).1 (nextTurn s).2

/-- One step of the run under parameters that the caller gives (rule R7); `step` is this with `Params.spec`. -/
def stepWith (p : Params) (s : State) : Host.Outcome State Fault Refusal :=
  agentStep (nextTurn s).1 (nextTurn s).2 p (execWith p)

/-- The state right after the host's write of the command word `w` to CMD (log 3): the command is started, its operands
are sampled from the operand registers, and the next turn is the controller's, which runs the command's first line. The
bits of `w` from `nbits` on are zero. A command word does not start while the block is halted or busy (rules R23, R24),
so the halt and the running command, if any, are taken away. -/
def State.withFetchWord (s : State) (nbits w : Nat) : State :=
  { startCommand { s with host := HostRegs.set s.host (.cmd (BitVec.ofNat 32 (w % 2 ^ nbits))) } with
    halted := none
    turns := .controller :: s.turns }

end Sys2Proof.Machine
end

