-- ==== Sys2Proof/Safety.lean ====
section
/-! DEFINITION. What counts as a sound state: the sequencer stands where the running command's micro-program can stand,
the packet buffer is canonical, RES says what the block does, a constructed block has programmed its radio, a session
phase has its extended address active, a frame that is dispatched is addressed to the device. Claims are stated with these; the model does not use them. -/

namespace Sys2Proof.Machine

/-! ## The packet buffer -/

/-- The buffer and the image of the running transmission are canonical. -/
def BufferOk (s : State) : Prop := Memory.wf s.buf = true ∧ Memory.wf s.txImage = true

/-! ## The sequencer -/

/-- WriteAndExpectAckProc returns where its caller goes on, within the attempt bound (rules R205, R212, R213). -/
def waitOk (i : Instr) (f : Frame) : Bool :=
  decide (f.k ≤ Config.ackAttempts) &&
    match i with
    | .writeExpectAck _ => decide (f.waitRet = .finish)
    | .associate => decide (f.waitRet = .assoc .afterRequest) || decide (f.waitRet = .assoc .afterDataRequest)
    | _ => false

/-- ReceiveOnceProc returns where its caller goes on; within a wait, an attempt is left (rules R203, R205, R211). -/
def onceOk (i : Instr) (f : Frame) : Bool :=
  match i with
  | .receiveOnce => decide (f.onceRet = .finish)
  | _ => decide (f.onceRet = .wait .tally) && waitOk i f && decide (f.k < Config.ackAttempts)

/-- TransmitBlocking returns where its caller goes on (rules R139, R203, R205, R210). -/
def txOk (i : Instr) (f : Frame) : Bool :=
  match i with
  | .transmit _ => decide (f.txRet = .finish)
  | .broadcastBeacon => decide (f.txRet = .finish)
  | .receiveOnce => decide (f.txRet = .once .dispatch) && onceOk i f
  | _ =>
    (decide (f.txRet = .once .dispatch) && onceOk i f) || (decide (f.txRet = .wait .loop) && waitOk i f)

/-- ReceiveBlocking returns where its caller goes on (rules R140, R203). -/
def rxOk (i : Instr) (f : Frame) : Bool :=
  match i with
  | .receive => decide (f.rxRet = .finish)
  | _ => decide (f.rxRet = .once .decode) && onceOk i f

/-- The lines at which TransmitBlocking's length test has been passed but its bytes are not yet stored (rule R137). -/
def txFits (l : TxLine) (f : Frame) : Bool :=
  match l with
  | .writeLen => decide (f.txBytes.length ≤ Config.bufCap - 1)
  | .writeBytes => decide (f.txBytes.length ≤ Config.bufCap - 1)
  | _ => true

/-- Whether a command ends with the line `finish`: every command of more than one step. -/
def hasFinish : Instr → Bool
  | .construct => true
  | .configure _ => true
  | .transmit _ => true
  | .receive => true
  | .broadcastBeacon => true
  | .receiveOnce => true
  | .writeExpectAck _ => true
  | .associate => true
  | _ => false

/-- The running command's position is one its micro-program can take (rule R22). -/
def runOk (i : Instr) (r : Run) : Bool :=
  match r.line with
  | .entry => decide (r.frame = Frame.start r.frame.ops)
  | .construct _ => decide (i = .construct)
  | .configure _ => match i with
    | .configure _ => true
    | _ => false
  | .tx l => txOk i r.frame && txFits l r.frame
  | .rx _ => rxOk i r.frame
  | .once _ => onceOk i r.frame
  | .wait .tally => waitOk i r.frame && decide (r.frame.k < Config.ackAttempts)
  | .wait _ => waitOk i r.frame
  | .assoc _ => decide (i = .associate)
  | .finish => hasFinish i
  | .raiseTimeout => match i with
    | .writeExpectAck _ => true
    | _ => false

/-- Idle, or running a command of the opcode map at a position of its micro-program (rules R22, R23). -/
def seqrOk : Seqr → Bool
  | .idle => true
  | .running r =>
    match decode r.frame.ops.cmd with
    | .command i => decide (r.op = i.opcode) && runOk i r
    | .reject _ => false

/-! ## RES -/

/-- RES says what the block does (rules R250, R255, R257): the halt while halted, BUSY while a command runs, a status of
an ended command (or no result yet) while Idle. -/
def ResOk (s : State) : Prop :=
  match s.halted with
  | some h => s.res = some { status := .halted, halt := some h, value := none, session := s.session }
  | none =>
    match s.seqr with
    | .running _ => ∃ snap, s.res = some { status := .busy, halt := none, value := none, session := snap }
    | .idle => ∀ r, s.res = some r → r.halt = none ∧ r.status ≠ .busy ∧ r.status ≠ .halted

/-! ## Construction and session -/

/-- PACKETPTR holds the buffer's address (rule R38). -/
def ptrSet (s : State) : Prop := s.radio.packetPtr = Config.bufAddr

/-- PCNF1 holds the maximum packet length (rule R42). -/
def pcnf1Set (s : State) : Prop := s.radio.pcnf1 = 0x000000ff

/-- A constructed block has programmed PACKETPTR and PCNF1 (rules R38, R42, R133), and CONSTRUCT's later lines find what
its earlier lines wrote. -/
def ProgrammedOk (s : State) : Prop :=
  (s.constructed = true → ptrSet s ∧ pcnf1Set s) ∧
  ∀ r, s.seqr = .running r →
    (r.line = .construct .setPcnf1 → ptrSet s) ∧
    (r.line = .construct .initSession ∨ r.line = .construct .setConstructed → ptrSet s ∧ pcnf1Set s)

/-- ASSOCIATE is past its acknowledged association request (rule R213). -/
def inPhaseTwo (r : Run) : Bool :=
  match r.line with
  | .assoc .request => false
  | .assoc .afterRequest => false
  | .assoc .abort => false
  | .assoc _ => true
  | .tx _ => decide (r.frame.waitRet = .assoc .afterDataRequest)
  | .rx _ => decide (r.frame.waitRet = .assoc .afterDataRequest)
  | .once _ => decide (r.frame.waitRet = .assoc .afterDataRequest)
  | .wait _ => decide (r.frame.waitRet = .assoc .afterDataRequest)
  | _ => false

/-- A handshake phase is reached only with the extended address active (rules R27, R29, R213). -/
def PhaseOk (s : State) : Prop :=
  (s.session.handshake ≠ .noHandshake → s.session.extActive = true) ∧
  ∀ r, s.seqr = .running r → inPhaseTwo r = true → s.session.extActive = true

/-- ReceiveOnceProc dispatches a frame, or sends the acknowledgement it dispatches after (rule R203). -/
def dispatching (r : Run) : Bool :=
  match r.line with
  | .once .dispatch => true
  | .tx _ => decide (r.frame.txRet = .once .dispatch)
  | _ => false

/-- A frame is acknowledged and dispatched only if it is addressed to the device (rules R201, R203, R214(b)). -/
def DispatchOk (s : State) : Prop :=
  ∀ r, s.seqr = .running r → dispatching r = true → ∃ m, r.frame.mac = some m ∧ addressedToMe m s = true

/-! ## Runs -/

/-- `n` controller steps of one command with no other agent's step between them. -/
def execRun : Nat → Instr → State → Host.Outcome State Fault Refusal
  | 0, _, s => .next s
  | n + 1, i, s =>
    match exec i s with
    | .next t => execRun n i t
    | .fault r => .fault r
    | .refused r => .refused r

/-- `n` steps of the run. -/
def stepRun : Nat → State → Host.Outcome State Fault Refusal
  | 0, s => .next s
  | n + 1, s =>
    match step s with
    | .next t => stepRun n t
    | .fault r => .fault r
    | .refused r => .refused r

end Sys2Proof.Machine
end

