-- ==== Sys2Proof/Certificates/Slice0/Obligations.lean ====
section
/-! DEFINITION. The statements about the machine. Each docstring names the rules of spec/ it formalises. A statement
that gives the next state as `{ s with … }` gives its frame too: every field it does not name is unchanged. -/

namespace Sys2Proof.Machine

/-! ## Words the statements use -/

/-- The bits of the command word a command reads (rules R82, R83). -/
def usedBits : Instr → Word
  | .construct => 0x000000ff
  | .configure _ => 0xffff00ff
  | .transmit _ => 0x00ff00ff
  | .receive => 0x000000ff
  | .encBeaconReq _ => 0x0000ffff
  | .encAssocReq _ => 0x0000ffff
  | .encDataReq _ => 0x0000ffff
  | .encAck _ => 0x0000ffff
  | .macDecode => 0x000000ff
  | .broadcastBeacon => 0x000000ff
  | .receiveOnce => 0x000000ff
  | .writeExpectAck _ => 0x0000ffff
  | .associate => 0x000000ff
  | .nwkParseFcf _ => 0xffff00ff
  | .nwkParsePacket => 0x000000ff
  | .nwkParseSechdr _ => 0xffff00ff

/-- The opcodes rule R84 lists as illegal. -/
def illegalOpc (c : Byte) : Prop :=
  c.toNat = 0x00 ∨ (0x05 ≤ c.toNat ∧ c.toNat ≤ 0x0f) ∨ (0x15 ≤ c.toNat ∧ c.toNat ≤ 0x1f)
    ∨ (0x24 ≤ c.toNat ∧ c.toNat ≤ 0x2f) ∨ (0x33 ≤ c.toNat ∧ c.toNat ≤ 0xff)

/-- The state with the running command at another line and with other local values. -/
def standing (s : State) (r : Run) (l : Line) (f : Frame) : State :=
  { s with seqr := .running { r with line := l, frame := f } }

/-- RES as a step that posts writes it (rule R255). -/
def posted (st : Status) (h : Option HaltReason) (v : Option Value) (s : State) : Option Res :=
  some { status := st, halt := h, value := v, session := s.session }

/-- The state in which a command has ended with a status and a value (rule R255). -/
def ended (st : Status) (v : Option Value) (s : State) : State :=
  { s with seqr := .idle, res := posted st none v s }

/-- The state in which the block has halted (rule R257). -/
def stopped (h : HaltReason) (s : State) : State :=
  { s with halted := some h, res := posted .halted (some h) none s }

/-- The commands that call TransmitBlocking (rules R139, R203, R205, R210). -/
def callsTransmit : Instr → Bool
  | .transmit _ => true
  | .broadcastBeacon => true
  | .receiveOnce => true
  | .writeExpectAck _ => true
  | .associate => true
  | _ => false

/-- The commands that call ReceiveBlocking (rules R140, R203). -/
def callsReceive : Instr → Bool
  | .receive => true
  | .receiveOnce => true
  | .writeExpectAck _ => true
  | .associate => true
  | _ => false

/-- The commands that call ReceiveOnceProc (rules R205, R211, R213). -/
def callsOnce : Instr → Bool
  | .receiveOnce => true
  | .writeExpectAck _ => true
  | .associate => true
  | _ => false

/-- The commands that call WriteAndExpectAckProc (rules R212, R213). -/
def callsWait : Instr → Bool
  | .writeExpectAck _ => true
  | .associate => true
  | _ => false

/-- The commands that test `constructed` first (rule R258). -/
def testsConstructed : Instr → Bool
  | .configure _ => true
  | .transmit _ => true
  | .receive => true
  | .broadcastBeacon => true
  | .receiveOnce => true
  | .writeExpectAck _ => true
  | .associate => true
  | _ => false

/-- The block runs a command, at a line: the hypotheses of a line's statement. -/
def runs (s : State) (r : Run) (l : Line) : Prop := s.halted = none ∧ s.seqr = .running r ∧ r.line = l

/-- The block is ready for a command word (rule R23). -/
def ready (s : State) : Prop := s.halted = none ∧ s.seqr = .idle

/-- The started command's frame: the operands sampled at the start step (rules R23, R68). -/
def startedRun (h : HostRegs) : Run := { op := h.cmd.extractLsb' 0 8, line := .entry, frame := Frame.start h }

/-- The radio rests, with no task pending (rules R45, R47). -/
def radioRests (s : State) (r : RadioState) : Prop :=
  s.rstate = r ∧ s.pending = { txen := false, rxen := false, start := false }

/-- A command word with an opcode stands first in the host's queue and the order of the turns is the prompt one. -/
def hostIssues (s : State) (w : Word) (q : List HostWrite) : Prop := s.hostQ = .cmd w :: q ∧ s.turns = []

/-- The steps of one attempt of WriteAndExpectAckProc in the prompt order, from RxIdle, on a frame that decodes and is
not for this device: eleven of the controller's, the radio's START and its reception's end. -/
def attemptSteps : Nat := 13

/-- A received frame that ends an attempt of a wait for `seq` without a match, an acknowledgement or a message: it
decodes, is not addressed to the device and does not match (rules R200, R204). -/
def failsQuietly (s : State) (seq : Byte) (f : AirFrame) : Prop :=
  f.bytes.length ≤ Config.maxLen ∧
    ∃ m, decodeFrame (f.bytes.take (f.bytes.length - Config.rxTrim)) = some m ∧ addressedToMe m s = false ∧
      ackMatches (some m) seq = false

/-- A received acknowledgement frame of a sequence number (rules R203, R204). -/
def acknowledges (f : AirFrame) (seq : Byte) : Prop :=
  f.bytes.length ≤ Config.maxLen ∧
    ∃ m, decodeFrame (f.bytes.take (f.bytes.length - Config.rxTrim)) = some m ∧ m.frameType = .ack ∧ m.seq = seq ∧
      m.dst = .none

/-- The length of an NWK header, security header included, from its flags, its relay count and its extended nonce
(rule R239(e)). -/
def nwkHeaderLength (f : FrameControlField) (relays : Nat) (nonce : Bool) : Nat :=
  8 + (if f.destination then 8 else 0) + (if f.sourceAddress then 8 else 0) + (if f.multicast then 1 else 0)
    + (if f.sourceRoute then 2 + relays else 0) + (if f.security then (if nonce then 14 else 6) else 0)

/-- The MIC's length where there is one (rule R112). -/
def nwkMicLength (f : FrameControlField) : Nat := if f.security then 4 else 0

/-- The index of the relay count in a packet with a source route (rules R112, R239(e)). -/
def nwkRouteIndex (f : FrameControlField) : Nat :=
  8 + (if f.destination then 8 else 0) + (if f.sourceAddress then 8 else 0) + (if f.multicast then 1 else 0)

/-- A security header on the wire (rule R113): control byte, frame counter, extended source where bit 5 asks for one, key
sequence number. -/
def secHeaderWire (c : Byte) (fcnt : Word) (xsrc : Dword) (ksn : Byte) : Bytes :=
  c :: (le32 fcnt ++ ((if c.getLsbD 5 then le64 xsrc else []) ++ [ksn]))

/-- What a security header reads as (rules R114, R115, R234), with the MIC given. -/
def secHeaderRead (c : Byte) (fcnt : Word) (xsrc : Dword) (ksn : Byte) (mic : Bytes) : SecurityHeader where
  keyIdentifier :=
    match c.getLsbD 4, c.getLsbD 3 with
    | false, false => .keyData
    | false, true => .keyNetwork
    | true, false => .keyTransport
    | true, true => .keyLoad
  extendedNonce := c.getLsbD 5
  usingEncryption := true
  micLength := 4
  frameCounter := fcnt
  extendedSource := if c.getLsbD 5 then some xsrc else none
  keySequence := ksn
  mic := mic

/-- An NWK packet's header before the security header, on the wire (rules R110, R111, R112): each optional field where its
bit of the frame control asks for it, a source route with its relay count, its index and its relays. -/
def nwkHeaderWire (fc dst src : Half) (radius seq : Byte) (xdst xsrc : Dword) (mc idx : Byte) (relays : Bytes) : Bytes :=
  le16 fc ++ (le16 dst ++ (le16 src ++ ([radius, seq] ++ ((if fc.getLsbD 11 then le64 xdst else []) ++
    ((if fc.getLsbD 12 then le64 xsrc else []) ++ ((if fc.getLsbD 8 then [mc] else []) ++
      (if fc.getLsbD 10 then BitVec.ofNat 8 relays.length :: idx :: relays else [])))))))

/-- What such a packet reads as (rule R237), with its security header and payload given. -/
def nwkRead (fc dst src : Half) (radius seq : Byte) (xdst xsrc : Dword) (mc : Byte) (h : Option SecurityHeader)
    (payload : Bytes) : NwkFrame where
  fcf := parseFcf fc
  dst := dst
  src := src
  radius := radius
  seq := seq
  extDst := if fc.getLsbD 11 then some xdst else none
  extSrc := if fc.getLsbD 12 then some xsrc else none
  multicastControl := if fc.getLsbD 8 then some mc else none
  securityHeader := h
  payload := payload

/-- The addressing mode's code (rule R93). -/
def addrModeCode : Addr → BitVec 2
  | .none => 0
  | .short _ _ => 2
  | .extended _ _ => 3

/-- A MAC frame control word carries a record's frame type, flags, version and addressing modes, bit by bit (rules R91,
R92, R93, R94). -/
def fcCarries (fc : Half) (m : MacFrame) : Prop :=
  fc.extractLsb' 0 3 = (match m.frameType with
    | .beacon => 0
    | .data => 1
    | .ack => 2
    | .command => 3) ∧
  fc.getLsbD 3 = m.security ∧ fc.getLsbD 4 = m.framePending ∧ fc.getLsbD 5 = m.ackRequest ∧
  fc.getLsbD 6 = m.panIdCompress ∧ fc.extractLsb' 10 2 = addrModeCode m.dst ∧
  fc.extractLsb' 12 2 = m.frameVersion ∧ fc.extractLsb' 14 2 = addrModeCode m.src

/-- The addressing fields on the wire (rules R95, R96). -/
def addressingWire (m : MacFrame) : Bytes :=
  (match m.dst with
    | .none => []
    | .short p a => le16 p ++ le16 a
    | .extended p a => le16 p ++ le64 a) ++
  match m.src with
    | .none => []
    | .short p a => (if m.panIdCompress = true ∧ m.dst ≠ .none then [] else le16 p) ++ le16 a
    | .extended p a => (if m.panIdCompress = true ∧ m.dst ≠ .none then [] else le16 p) ++ le64 a

/-- The content on the wire (rules R97, R98, R100). -/
def contentWire : Content → Bytes
  | .dataContent => []
  | .beaconContent => []
  | .ackContent => []
  | .beaconRequest => [0x07]
  | .associationRequest c => [0x01, c]
  | .associationResponse a .successful => [0x02] ++ le16 a ++ [0x00]
  | .associationResponse a .panAtCapacity => [0x02] ++ le16 a ++ [0x01]
  | .associationResponse a .panAccessDenied => [0x02] ++ le16 a ++ [0x02]
  | .dataRequest => [0x04]

/-- The registers of the radio block, in the order of rule R33's table. -/
def allRegs : List Reg :=
  [.tasksTxen, .tasksRxen, .tasksStart, .tasksStop, .tasksDisable, .tasksRssiStart, .tasksRssiStop, .tasksBcStart,
   .tasksBcStop, .tasksEdStart, .tasksEdStop, .tasksCcaStart, .tasksCcaStop] ++
  [.eventsReady, .eventsAddress, .eventsPayload, .eventsEnd, .shorts, .crcStatus, .rxMatch, .rxCrc, .dai] ++
  [.packetPtr, .frequency, .txPower, .mode, .pcnf0, .pcnf1, .base0, .base1, .prefix0, .prefix1, .txAddress,
   .rxAddresses, .crcCnf, .crcPoly, .crcInit, .tifs, .rssiSample, .state, .power]

/-- Their offsets (rule R33). -/
def allOffsets : List Nat :=
  [0x000, 0x004, 0x008, 0x00C, 0x010, 0x014, 0x018, 0x01C, 0x020, 0x024, 0x028, 0x02C, 0x030] ++
  [0x100, 0x104, 0x108, 0x10C, 0x200, 0x400, 0x408, 0x40C, 0x410] ++
  [0x504, 0x508, 0x50C, 0x510, 0x514, 0x518, 0x51C, 0x520, 0x524, 0x528, 0x52C, 0x530, 0x534, 0x538, 0x53C, 0x544,
   0x548, 0x550, 0xFFC]

/-- A frame record the decoder can produce (rule R174(a)). -/
def decodable (m : MacFrame) : Prop :=
  m.consistent = true ∧ m.security = false ∧ m.frameVersion ∈ Config.acceptedVersions ∧
    ¬ (m.panIdCompress = true ∧ m.dst = .none ∧ m.src ≠ .none) ∧
    (m.panIdCompress = true → m.dst ≠ .none → m.src ≠ .none → panOf m.src = panOf m.dst)

end Sys2Proof.Machine

open Sys2Proof Sys2Proof.Machine

/-! ## Encoding -/

/-- Rules R82, R83: the decoder reads every operand of every command back from its word. -/
def Obligations.CommandWordRoundTrip : Prop :=
  ∀ i : Instr, i.wf = true → decode (encode i) = .command i

/-- Rules R82, R83: a word's command is well-formed, has the word's opcode, and its own word is the given one with the
ignored bits cleared. -/
def Obligations.DecodedCommandReencodes : Prop :=
  ∀ (w : Word) (i : Instr), decode w = .command i →
    i.wf = true ∧ i.opcode = opcField w ∧ encode i = w &&& usedBits i

/-- Rules R84, R259: the listed opcodes, and no others, are illegal; writing one halts the block in the start step with no
other effect (that the write sets CMD is log 33; the host's queue and the turns are logs 3 and 1). -/
def Obligations.IllegalOpcodeHalts : Prop :=
  (∀ w : Word, illegalOpc (opcField w) ↔ decode w = .reject (.illegalOpcode (opcField w))) ∧
  (∀ w : Word, ¬ illegalOpc (opcField w) → ∃ i, decode w = .command i) ∧
  ∀ (s : State) (w : Word) (q : List HostWrite) (ts : List Turn), ready s → s.hostQ = .cmd w :: q →
    s.turns = .host :: ts → illegalOpc (opcField w) →
    step s = .next { stopped .illegalCommand s with host := { s.host with cmd := w }, hostQ := q, turns := ts }

/-- Rule R83: words of 95_test_vectors.md decode to the commands they stand for. -/
def Obligations.SampleCommandWordsDecode : Prop :=
  decode 0x00000001 = .command .construct ∧ decode 0x09650002 = .command (.configure 2405) ∧
  decode 0xff0a0003 = .command (.transmit 10) ∧ decode 0x00000004 = .command .receive ∧
  decode 0x00002a10 = .command (.encBeaconReq 42) ∧ decode 0x00002c12 = .command (.encDataReq 44) ∧
  decode 0x00000014 = .command .macDecode ∧ decode 0x00002c22 = .command (.writeExpectAck 44) ∧
  decode 0x00000023 = .command .associate ∧ decode 0x1a090030 = .command (.nwkParseFcf 0x1a09) ∧
  decode 0x00080032 = .command (.nwkParseSechdr 8)

/-! ## The step, the host and the sequencer -/

/-- Rules R23, R69: the controller's turn, listed or prompt, runs the running command's meaning; the host's write of a
command word to a block that is ready runs the meaning of the command it decodes to, CMD written. -/
def Obligations.StepRunsTheDecodedCommand : Prop :=
  (∀ (s : State) (r : Run) (i : Instr) (ts : List Turn), s.halted = none → s.seqr = .running r →
    decode r.frame.ops.cmd = .command i → s.turns = .controller :: ts → step s = exec i { s with turns := ts }) ∧
  (∀ (s : State) (r : Run) (i : Instr), s.halted = none → s.seqr = .running r →
    decode r.frame.ops.cmd = .command i → s.turns = [] → promptTurn s = .controller → step s = exec i s) ∧
  ∀ (s : State) (w : Word) (i : Instr) (q : List HostWrite) (ts : List Turn), ready s → s.hostQ = .cmd w :: q →
    s.turns = .host :: ts → decode w = .command i →
    step s = exec i { s with host := { s.host with cmd := w }, hostQ := q, turns := ts }

/-- Rules R23, R68, R255: every command starts so: Running at its first line with the operands sampled and an empty
frame (log 32), RES BUSY. -/
def Obligations.EveryCommandStarts : Prop :=
  ∀ (i : Instr) (s : State), ready s →
    exec i s = .next { s with
      seqr := .running (startedRun s.host)
      res := posted .busy none none s }

/-- Rules R23, R24, R257: a CMD write while a command runs or while halted is ignored (that the register CMD keeps its
value too is log 33). -/
def Obligations.CmdWriteIgnoredUnlessReady : Prop :=
  ∀ (s : State) (w : Word) (q : List HostWrite) (ts : List Turn), ¬ ready s → s.hostQ = .cmd w :: q →
    s.turns = .host :: ts → step s = .next { s with hostQ := q, turns := ts }

/-- Rule R68: no step, the host's writes among them, changes the operands or the opcode of the running command. -/
def Obligations.SampledOperandsStayFixed : Prop :=
  ∀ (s t : State) (r r' : Run), step s = .next t → s.seqr = .running r → t.seqr = .running r' →
    r'.op = r.op ∧ r'.frame.ops = r.frame.ops

/-- Rules R81, R68: the host's write of an operand register or of IN changes that register alone. That it does so whatever
the block does, running a command or halted too, is the model's reading, log 25. -/
def Obligations.HostWritesItsRegisterOnly : Prop :=
  ∀ (s : State) (v : HostWrite) (q : List HostWrite) (ts : List Turn), s.hostQ = v :: q → s.turns = .host :: ts →
    (∀ w, v ≠ .cmd w) →
    step s = .next { s with
      hostQ := q
      turns := ts
      host := {
        cmd := s.host.cmd
        ext := match v with | .ext x => x | _ => s.host.ext
        dpan := match v with | .dpan x => x | _ => s.host.dpan
        dshort := match v with | .dshort x => x | _ => s.host.dshort
        span := match v with | .span x => x | _ => s.host.span
        cap := match v with | .cap x => x | _ => s.host.cap
        mode := match v with | .mode x => x | _ => s.host.mode
        pcnf0 := match v with | .pcnf0 x => x | _ => s.host.pcnf0
        crccnf := match v with | .crccnf x => x | _ => s.host.crccnf
        crcpoly := match v with | .crcpoly x => x | _ => s.host.crcpoly
        inp := match v with | .inp x => x | _ => s.host.inp } }

/-- Rule R281: the block is Idle after reset, with no result; an Idle block takes no step until the host writes CMD: no
other step of any agent, a CMD write waiting or not, starts it, posts a result or changes what the block holds. That a
controller turn on an Idle block uses up the turn and changes nothing else is the model's, log 27. -/
def Obligations.IdleBlockWaits : Prop :=
  State.reset.seqr = .idle ∧ State.reset.res = none ∧
  (∀ (s : State) (ts : List Turn), s.seqr = .idle → s.turns = .controller :: ts →
    step s = .next { s with turns := ts }) ∧
  ∀ s t : State, step s = .next t → s.seqr = .idle →
    ¬ ((nextTurn s).1 = .host ∧ ∃ w q, s.hostQ = .cmd w :: q) →
    t.seqr = .idle ∧ t.res = s.res ∧ t.halted = s.halted ∧ t.constructed = s.constructed ∧
      t.ownExtended = s.ownExtended ∧ t.session = s.session ∧ t.sink = s.sink

/-! ## Reset -/

/-- Rules R50, R51, R52: the values the spec gives for reset: of the block, and of every radio register R51 gives one for.
(That a task register reads as its reset value until it is written is log 17; that the buffer lists no byte is the model's
form of R52's draw, log 4.) -/
def Obligations.ResetValues : Prop :=
  State.reset.seqr = .idle ∧ State.reset.halted = none ∧ State.reset.constructed = false ∧
  State.reset.session = { extActive := false, assignedShort := none, handshake := .noHandshake } ∧
  State.reset.res = none ∧ State.reset.rstate = .disabled ∧
  regRead .state State.reset = 0 ∧
  State.reset.pending = { txen := false, rxen := false, start := false } ∧
  (∀ r ∈ [Reg.tasksTxen, .tasksRxen, .tasksStart, .tasksStop, .tasksDisable, .tasksRssiStart, .tasksRssiStop,
      .tasksBcStart, .tasksBcStop, .tasksEdStart, .tasksEdStop, .tasksCcaStart, .tasksCcaStop],
    regRead r State.reset = 0) ∧
  (∀ r ∈ [Reg.eventsReady, .eventsAddress, .eventsPayload, .eventsEnd, .shorts, .packetPtr, .txPower, .mode, .pcnf0,
      .pcnf1, .base0, .base1, .prefix0, .prefix1, .txAddress, .rxAddresses, .crcCnf, .crcPoly, .crcInit, .tifs],
    regRead r State.reset = 0) ∧
  regRead .frequency State.reset = 0x00000002 ∧ regRead .power State.reset = 1 ∧
  ∀ a, Memory.lookup State.reset.buf a = none

/-! ## The radio and the air -/

/-- Rules R160, R162, R163, R161 (and log 41 where SHORTS is not 0): an enable task taken is removed; it starts a ramp-up
from Disabled, from the other Idle state if accepted (both are admitted under `Either`: the choice is the turn's, log 11),
and is dropped in any other state. With the task not pending the transition is not enabled and the turn changes nothing
(log 27). -/
def Obligations.EnableTasksTaken : Prop :=
  (∀ (s : State) (c : Bool) (ts : List Turn), s.turns = .radio (.takeTxen c) :: ts → s.pending.txen = true →
    step s = .next { s with
      turns := ts
      pending := { s.pending with txen := false }
      rstate := if s.rstate = .disabled ∨ (s.rstate = .rxIdle ∧ c = true) then .txRampUp else s.rstate }) ∧
  (∀ (s : State) (c : Bool) (ts : List Turn), s.turns = .radio (.takeRxen c) :: ts → s.pending.rxen = true →
    step s = .next { s with
      turns := ts
      pending := { s.pending with rxen := false }
      rstate := if s.rstate = .disabled ∨ (s.rstate = .txIdle ∧ c = true) then .rxRampUp else s.rstate }) ∧
  ∀ (s : State) (c : Bool) (ts : List Turn),
    (s.turns = .radio (.takeTxen c) :: ts → s.pending.txen = false → step s = .next { s with turns := ts }) ∧
    (s.turns = .radio (.takeRxen c) :: ts → s.pending.rxen = false → step s = .next { s with turns := ts })

/-- Rules R160, R164 (and log 15 for the ready event, log 41 where SHORTS is not 0): a ramp-up ends in its Idle state. In any other state there is none
to end and the turn changes nothing (log 27). -/
def Obligations.RampUpEnds : Prop :=
  ∀ (s : State) (ts : List Turn), s.turns = .radio .rampUp :: ts →
    (s.rstate = .txRampUp → step s = .next { s with
      turns := ts
      rstate := .txIdle
      radio := { s.radio with eventsReady := s.radio.eventsReady ||| 1 } }) ∧
    (s.rstate = .rxRampUp → step s = .next { s with
      turns := ts
      rstate := .rxIdle
      radio := { s.radio with eventsReady := s.radio.eventsReady ||| 1 } }) ∧
    (s.rstate ≠ .txRampUp → s.rstate ≠ .rxRampUp → step s = .next { s with turns := ts })

/-- Rules R160, R166 (and log 14 for `airConf`, log 41 where SHORTS is not 0): START taken in TxIdle begins a transmission and latches `txLen` and the
buffer as it stands; in RxIdle it begins a reception; in any other state it is dropped. With START not pending the turn
changes nothing (log 27). -/
def Obligations.StartTaken : Prop :=
  (∀ (s : State) (ts : List Turn), s.turns = .radio .takeStart :: ts → s.pending.start = true →
    (s.rstate = .txIdle → step s = .next { s with
      turns := ts
      pending := { s.pending with start := false }
      rstate := .tx
      txLen := s.buf.read 0
      txImage := s.buf
      txDirty := []
      airConf := airConfigured s.radio }) ∧
    (s.rstate = .rxIdle → step s = .next { s with
      turns := ts
      pending := { s.pending with start := false }
      rstate := .rx
      airConf := airConfigured s.radio }) ∧
    (s.rstate ≠ .txIdle → s.rstate ≠ .rxIdle → step s = .next { s with
      turns := ts
      pending := { s.pending with start := false } })) ∧
  ∀ (s : State) (ts : List Turn), s.turns = .radio .takeStart :: ts → s.pending.start = false →
    step s = .next { s with turns := ts }

/-- Rules R160, R165, R168 (logs 12, 13, 14, 15, 41): a transmission's end hands the air `AirTx(txLen, T)`, `T` having
`max(txLen − 2, 0)` bytes, each the buffer's as the transmission began unless the controller has written it since; the
radio is in TxIdle. That the configuration which counts is the one at START, kept in `airConf`, is the model's choice,
log 14. Nothing changes but the radio's state, its event registers, the air's frames and the count of free values. With
no transmission running the turn changes nothing (log 27). -/
def Obligations.TransmissionEnds : Prop :=
  (∀ (s : State) (ts : List Turn), s.turns = .radio .txEnd :: ts → s.rstate = .tx →
    ∃ (x : AirTx) (ρ : RadioRegs) (d : Nat),
      step s = .next { s with turns := ts, rstate := .txIdle, airOut := s.airOut ++ [x], radio := ρ, draws := d } ∧
      (s.airConf = true → ∃ T : Bytes, x = .frame s.txLen T ∧ T.length = s.txLen.toNat - 2 ∧
        ∀ i, i < T.length → (1 + i) ∉ s.txDirty → T[i]? = some (s.txImage.read (1 + i))) ∧
      (s.airConf = false → x = .undescribed) ∧
      ρ.eventsEnd = s.radio.eventsEnd ||| 1 ∧
      { ρ with
        eventsEnd := s.radio.eventsEnd
        eventsPayload := s.radio.eventsPayload
        eventsAddress := s.radio.eventsAddress } = s.radio) ∧
  ∀ (s : State) (ts : List Turn), s.turns = .radio .txEnd :: ts → s.rstate ≠ .tx → step s = .next { s with turns := ts }

/-- Rules R160, R167, R168, R37 (and logs 13, 14, 15, 16, 26, 41): a reception's end takes the air's first frame, of at most 255
bytes, and puts the radio in RxIdle; under the configuration of rule R168 (at START and now, log 14) it writes `buf[0] <- L`
and `buf[1 .. 1+L) <- F` in the same step and every other byte of the buffer reads as before (that a reception ends so under
another configuration too, the buffer's bytes then any, is log 13); the received-packet details are the frame's; no other
register changes but the packet's events. With no reception running, no frame to deliver or a
longer one (log 26), the turn changes nothing (log 27). -/
def Obligations.ReceptionEnds : Prop :=
  (∀ (s : State) (ts : List Turn) (f : AirFrame) (rest : List AirFrame), s.turns = .radio .rxEnd :: ts →
    s.rstate = .rx → s.airIn = f :: rest → f.bytes.length ≤ 255 →
    ∃ (m : Memory) (ρ : RadioRegs) (d : Nat),
      step s = .next { s with turns := ts, rstate := .rxIdle, airIn := rest, buf := m, radio := ρ, draws := d } ∧
      (s.airConf = true → airConfigured s.radio = true →
        (m.read 0).toNat = f.bytes.length ∧
        (∀ i, i < f.bytes.length → f.bytes[i]? = some (m.read (1 + i))) ∧
        (∀ a, 1 + f.bytes.length ≤ a → m.read a = s.buf.read a)) ∧
      ρ.crcStatus = (if f.crcOk then 1 else 0) ∧ ρ.rxMatch = f.rxMatch.setWidth 32 ∧
      ρ.rxCrc = f.rxCrc.setWidth 32 ∧ ρ.dai = f.dai.setWidth 32 ∧ ρ.eventsEnd = s.radio.eventsEnd ||| 1 ∧
      { ρ with
        crcStatus := s.radio.crcStatus
        rxMatch := s.radio.rxMatch
        rxCrc := s.radio.rxCrc
        dai := s.radio.dai
        eventsEnd := s.radio.eventsEnd
        eventsPayload := s.radio.eventsPayload
        eventsAddress := s.radio.eventsAddress } = s.radio) ∧
  ∀ (s : State) (ts : List Turn), s.turns = .radio .rxEnd :: ts →
    (s.rstate ≠ .rx ∨ s.airIn = [] ∨ ∃ f rest, s.airIn = f :: rest ∧ 255 < f.bytes.length) →
    step s = .next { s with turns := ts }

/-- Rule R160: no step of any agent disables the radio or takes it into RxDisable, TxDisable or back to Disabled. -/
def Obligations.RadioNeverDisabledAgain : Prop :=
  ∀ (s t : State), step s = .next t →
    (t.rstate = .disabled ∨ t.rstate = .rxDisable ∨ t.rstate = .txDisable) → t.rstate = s.rstate

/-- Rules R36, R160: with the shortcuts off they stay off: no step enables one. -/
def Obligations.ShortcutsStayOff : Prop :=
  ∀ (s t : State), step s = .next t → s.radio.shorts = 0 → t.radio.shorts = 0

/-- Rules R33, R34, R35, R45, R46, R61, R66, R72: where every register lies; a configuration register, SHORTS among them,
reads back the word last written and its write touches nothing else; a task register's write of 0 does nothing, and 1
raises the task and nothing else (the word it then reads as is free, log 17; START is pending by log 10); an event
register is cleared by a write of 0; STATE reads as the code of the radio's state; the identity words are read where R61
puts them, and no step changes one. -/
def Obligations.IdentityWordsNeverChange : Prop :=
  (∀ r : Reg, r ∈ allRegs) ∧ allRegs.map Reg.offset = allOffsets ∧
  (∀ r : Reg, r.address = 0x40001000 + r.offset) ∧
  (∀ r ∈ [Reg.shorts, .packetPtr, .frequency, .txPower, .mode, .pcnf0, .pcnf1, .base0, .base1, .prefix0, .prefix1,
      .txAddress, .rxAddresses, .crcCnf, .crcPoly, .crcInit, .tifs, .power], ∀ (v : Word) (s : State),
    regRead r (regWrite r v s) = v ∧ (∀ q, q ≠ r → regRead q (regWrite r v s) = regRead q s) ∧
    { regWrite r v s with radio := s.radio } = s) ∧
  (∀ r ∈ allRegs.take 13, ∀ s : State, regWrite r 0 s = s) ∧
  (∀ s : State,
    regWrite .tasksTxen 1 s = { s with
      pending := { s.pending with txen := true }
      tasks := { s.tasks with txen := Config.taskRead s.tasks.writes, writes := s.tasks.writes + 1 } } ∧
    regWrite .tasksRxen 1 s = { s with
      pending := { s.pending with rxen := true }
      tasks := { s.tasks with rxen := Config.taskRead s.tasks.writes, writes := s.tasks.writes + 1 } } ∧
    regWrite .tasksStart 1 s = { s with
      pending := { s.pending with start := true }
      tasks := { s.tasks with start := Config.taskRead s.tasks.writes, writes := s.tasks.writes + 1 } }) ∧
  (∀ r ∈ [Reg.eventsReady, .eventsAddress, .eventsPayload, .eventsEnd], ∀ s : State,
    regRead r (regWrite r 0 s) = 0 ∧ (∀ q, q ≠ r → regRead q (regWrite r 0 s) = regRead q s) ∧
    { regWrite r 0 s with radio := s.radio } = s) ∧
  (∀ s : State, regRead .state s = match s.rstate with
    | .disabled => 0
    | .rxRampUp => 1
    | .rxIdle => 2
    | .rx => 3
    | .rxDisable => 4
    | .txRampUp => 9
    | .txIdle => 10
    | .tx => 11
    | .txDisable => 12) ∧
  FicrWord.address .devidHi = 0x10000064 ∧ FicrWord.address .devidLo = 0x10000060 ∧
  (∀ s : State, ficrRead .devidHi s = s.ficrHi ∧ ficrRead .devidLo s = s.ficrLo) ∧
  ∀ (s t : State), step s = .next t → t.ficrHi = s.ficrHi ∧ t.ficrLo = s.ficrLo

/-! ## The radio controller -/

/-- Rule R137 (rules R130, R131, R132 for its polls): every line of TransmitBlocking, in every command that calls it (the
free word a task register then reads as is log 17). -/
def Obligations.TransmitBlockingLines : Prop :=
  ∀ (i : Instr) (s : State) (r : Run), callsTransmit i = true →
    (runs s r (.tx .check) → exec i s = .next
      (if 255 < r.frame.txBytes.length then stopped .bufferOverflow s else standing s r (.tx .writeLen) r.frame)) ∧
    (runs s r (.tx .writeLen) → exec i s = .next { standing s r (.tx .writeBytes) r.frame with
      buf := s.buf.writeBytes 0 [r.frame.txOnAir]
      txDirty := if s.rstate = .tx then 0 :: s.txDirty else s.txDirty }) ∧
    (runs s r (.tx .writeBytes) → r.frame.txBytes.length ≤ 255 →
      exec i s = .next { standing s r (.tx .shorts) r.frame with
        buf := s.buf.writeBytes 1 r.frame.txBytes
        txDirty := if s.rstate = .tx then (List.range r.frame.txBytes.length).map (1 + ·) ++ s.txDirty
          else s.txDirty }) ∧
    (runs s r (.tx .shorts) → exec i s = .next { standing s r (.tx .readState) r.frame with
      radio := { s.radio with shorts := 0 } }) ∧
    (runs s r (.tx .readState) → exec i s = .next
      (standing s r (.tx .enable) { r.frame with stateRead := s.rstate.code.setWidth 32 })) ∧
    (runs s r (.tx .enable) → exec i s = .next { standing s r (.tx .pollReady) r.frame with
      pending := { s.pending with
        txen := if r.frame.stateRead.extractLsb' 0 4 = 10 then s.pending.txen else true }
      tasks := if r.frame.stateRead.extractLsb' 0 4 = 10 then s.tasks
        else { s.tasks with txen := Config.taskRead s.tasks.writes, writes := s.tasks.writes + 1 } }) ∧
    (runs s r (.tx .pollReady) → exec i s = .next
      (if s.rstate = .txIdle then standing s r (.tx .start) r.frame else s)) ∧
    (runs s r (.tx .start) → exec i s = .next { standing s r (.tx .pollDone) r.frame with
      pending := { s.pending with start := true }
      tasks := { s.tasks with start := Config.taskRead s.tasks.writes, writes := s.tasks.writes + 1 } }) ∧
    (runs s r (.tx .pollDone) → exec i s = .next
      (if s.rstate = .txIdle then standing s r r.frame.txRet r.frame else s))

/-- Rule R138 (rules R130, R131, R132 for its polls): every line of ReceiveBlocking, in every command that calls it (the
free word a task register then reads as is log 17). -/
def Obligations.ReceiveBlockingLines : Prop :=
  ∀ (i : Instr) (s : State) (r : Run), callsReceive i = true →
    (runs s r (.rx .shorts) → exec i s = .next { standing s r (.rx .readState) r.frame with
      radio := { s.radio with shorts := 0 } }) ∧
    (runs s r (.rx .readState) → exec i s = .next
      (standing s r (.rx .enable) { r.frame with stateRead := s.rstate.code.setWidth 32 })) ∧
    (runs s r (.rx .enable) → exec i s = .next { standing s r (.rx .pollReady) r.frame with
      pending := { s.pending with
        rxen := if r.frame.stateRead.extractLsb' 0 4 = 2 then s.pending.rxen else true }
      tasks := if r.frame.stateRead.extractLsb' 0 4 = 2 then s.tasks
        else { s.tasks with rxen := Config.taskRead s.tasks.writes, writes := s.tasks.writes + 1 } }) ∧
    (runs s r (.rx .pollReady) → exec i s = .next
      (if s.rstate = .rxIdle then standing s r (.rx .start) r.frame else s)) ∧
    (runs s r (.rx .start) → exec i s = .next { standing s r (.rx .pollDone) r.frame with
      pending := { s.pending with start := true }
      tasks := { s.tasks with start := Config.taskRead s.tasks.writes, writes := s.tasks.writes + 1 } }) ∧
    (runs s r (.rx .pollDone) → exec i s = .next
      (if s.rstate = .rxIdle then standing s r (.rx .readLen) r.frame else s)) ∧
    (runs s r (.rx .readLen) → exec i s = .next
      (standing s r (.rx .readFrame) { r.frame with rxLen := s.buf.read 0 })) ∧
    (runs s r (.rx .readFrame) → ∃ F : Bytes, F.length = r.frame.rxLen.toNat ∧
      (∀ j, j < F.length → F[j]? = some (s.buf.read (1 + j))) ∧
      exec i s = .next (standing s r r.frame.rxRet { r.frame with rxBytes := F }))

/-- Rule R133: CONSTRUCT on a block that is not constructed, from its start to its result: ten controller steps (log 19);
and every line of it before the last, whatever other agents do between the lines (rule R69). -/
def Obligations.ConstructCompletes : Prop :=
  (∀ s : State, ready s → s.constructed = false →
    execRun 10 .construct s = .next { s with
      constructed := true
      ownExtended := (s.ficrHi.setWidth 64 <<< 32) ||| s.ficrLo.setWidth 64
      session := { extActive := false, assignedShort := none, handshake := .noHandshake }
      radio := { s.radio with packetPtr := Config.bufAddr, pcnf1 := 0x000000ff }
      res := some { status := .ok, halt := none, value := none,
                    session := { extActive := false, assignedShort := none, handshake := .noHandshake } } }) ∧
  ∀ (s : State) (r : Run),
    (runs s r .entry → s.constructed = false →
      exec .construct s = .next (standing s r (.construct .readHi) r.frame)) ∧
    (runs s r (.construct .readHi) →
      exec .construct s = .next (standing s r (.construct .readLo) { r.frame with hi := s.ficrHi })) ∧
    (runs s r (.construct .readLo) →
      exec .construct s = .next (standing s r (.construct .setExtended) { r.frame with lo := s.ficrLo })) ∧
    (runs s r (.construct .setExtended) →
      exec .construct s = .next { standing s r (.construct .setPacketPtr) r.frame with
        ownExtended := (r.frame.hi.setWidth 64 <<< 32) ||| r.frame.lo.setWidth 64 }) ∧
    (runs s r (.construct .setPacketPtr) →
      exec .construct s = .next { standing s r (.construct .setPcnf1) r.frame with
        radio := { s.radio with packetPtr := Config.bufAddr } }) ∧
    (runs s r (.construct .setPcnf1) →
      exec .construct s = .next { standing s r (.construct .initSession) r.frame with
        radio := { s.radio with pcnf1 := 0x000000ff } }) ∧
    (runs s r (.construct .initSession) →
      exec .construct s = .next { standing s r (.construct .setConstructed) r.frame with
        session := { extActive := false, assignedShort := none, handshake := .noHandshake } }) ∧
    (runs s r (.construct .setConstructed) →
      exec .construct s = .next { standing s r .finish r.frame with constructed := true })

/-- Rules R136, R68: CONFIGURE with a frequency in range, from its start to its result: nine controller steps (log 19); and
every line of it before the last, whatever other agents do between the lines (rule R69): what it writes is the operands
sampled at the start. -/
def Obligations.ConfigureCompletes : Prop :=
  (∀ (s : State) (f : Nat), ready s → s.constructed = true → 2360 ≤ f → f ≤ 2500 →
    execRun 9 (.configure f) s = .next { s with
      radio := { s.radio with
        frequency := if 2400 ≤ f then BitVec.ofNat 32 (f - 2400) else BitVec.ofNat 32 (f - 2360) ||| 0x100
        mode := s.host.mode
        pcnf0 := s.host.pcnf0
        crcCnf := s.host.crccnf
        crcPoly := s.host.crcpoly }
      res := posted .ok none none s }) ∧
  ∀ (s : State) (r : Run) (f : Nat),
    (runs s r .entry → s.constructed = true →
      exec (.configure f) s = .next (standing s r (.configure .rangeTest) r.frame)) ∧
    (runs s r (.configure .rangeTest) → exec (.configure f) s = .next
      (if 2360 ≤ f ∧ f ≤ 2500 then standing s r (.configure .setFrequency) r.frame
        else ended .rangeError none s)) ∧
    (runs s r (.configure .setFrequency) → exec (.configure f) s = .next
      { standing s r (.configure .setMode) r.frame with
        radio := { s.radio with
          frequency := if 2400 ≤ f then BitVec.ofNat 32 (f - 2400) else BitVec.ofNat 32 (f - 2360) ||| 0x100 } }) ∧
    (runs s r (.configure .setMode) → exec (.configure f) s = .next
      { standing s r (.configure .setPcnf0) r.frame with radio := { s.radio with mode := r.frame.ops.mode } }) ∧
    (runs s r (.configure .setPcnf0) → exec (.configure f) s = .next
      { standing s r (.configure .setCrcCnf) r.frame with radio := { s.radio with pcnf0 := r.frame.ops.pcnf0 } }) ∧
    (runs s r (.configure .setCrcCnf) → exec (.configure f) s = .next
      { standing s r (.configure .setCrcPoly) r.frame with radio := { s.radio with crcCnf := r.frame.ops.crccnf } }) ∧
    (runs s r (.configure .setCrcPoly) → exec (.configure f) s = .next
      { standing s r .finish r.frame with radio := { s.radio with crcPoly := r.frame.ops.crcpoly } })

/-- Rules R136, R251: CONFIGURE with a frequency out of range ends with RANGE_ERROR, after three controller steps
(log 19), and changes nothing but RES. -/
def Obligations.ConfigureOutOfRange : Prop :=
  ∀ (s : State) (f : Nat), ready s → s.constructed = true → (f < 2360 ∨ 2500 < f) →
    execRun 3 (.configure f) s = .next { s with res := posted .rangeError none none s }

/-- Rules R134, R135: the valid frequencies and the word that encodes one. -/
def Obligations.FrequencyEncoding : Prop :=
  (∀ f : Nat, freqValid f = true ↔ 2360 ≤ f ∧ f ≤ 2500) ∧
  ∀ f : Nat, freqValid f = true →
    (2400 ≤ f → freqEncode f = BitVec.ofNat 32 (f - 2400) ∧ (freqEncode f).getLsbD 8 = false) ∧
    (f < 2400 → freqEncode f = BitVec.ofNat 32 (f - 2360) ||| 0x00000100 ∧ (freqEncode f).getLsbD 8 = true) ∧
    ((freqEncode f).extractLsb' 0 7).toNat = (if 2400 ≤ f then f - 2400 else f - 2360) ∧
    (freqEncode f).getLsbD 7 = false ∧ (freqEncode f).extractLsb' 9 23 = 0

/-- Rule R258: at its first line a radio or session command of a block that is not constructed halts with NOT_CONSTRUCTED
before any other effect; a codec command does not test `constructed`: its step is the same with `constructed` either
way, it does not halt, and it changes nothing but the sequencer and RES. And (rule R133) CONSTRUCT of a constructed block
halts with ALREADY_CONSTRUCTED. -/
def Obligations.ConstructionTests : Prop :=
  (∀ (i : Instr) (s : State) (r : Run), testsConstructed i = true → runs s r .entry → s.constructed = false →
    exec i s = .next (stopped .notConstructed s)) ∧
  (∀ (i : Instr) (s : State) (r : Run), testsConstructed i = false → i ≠ .construct → runs s r .entry →
    ∃ t, exec i s = .next t ∧ t.halted = none ∧ { t with seqr := s.seqr, res := s.res } = s ∧
      ∀ b, exec i { s with constructed := b } = .next { t with constructed := b }) ∧
  ∀ (s : State) (r : Run), runs s r .entry → s.constructed = true →
    exec .construct s = .next (stopped .alreadyConstructed s)

/-- Rules R139, R140, R210, R211, R212, R213: the first line of the commands that use the radio, on a constructed
block. -/
def Obligations.RadioCommandsEnter : Prop :=
  ∀ (s : State) (r : Run), runs s r .entry → s.constructed = true →
    (∀ n, exec (.transmit n) s = .next (standing s r (.tx .check)
      { r.frame with txBytes := r.frame.ops.inp, txOnAir := n, txRet := .finish })) ∧
    exec .receive s = .next (standing s r (.rx .shorts) { r.frame with rxRet := .finish }) ∧
    exec .broadcastBeacon s = .next (standing s r (.tx .check)
      { r.frame with txBytes := [0x03, 0x08, 0x2a, 0xff, 0xff, 0xff, 0xff, 0x07], txOnAir := 10, txRet := .finish }) ∧
    exec .receiveOnce s = .next (standing s r (.rx .shorts)
      { r.frame with onceRet := .finish, rxRet := .once .decode }) ∧
    (∀ seq, exec (.writeExpectAck seq) s = .next (standing s r (.wait .check)
      { r.frame with waitSeq := seq, waitBytes := r.frame.ops.inp, k := 0, waitRet := .finish })) ∧
    exec .associate s = .next (standing s r (.assoc .request) r.frame)

/-- Rules R133, R136, R139, R140, R210, R211, R212, R213, R255: the last lines of the commands of more than one step. -/
def Obligations.CommandsEnd : Prop :=
  ∀ (s : State) (r : Run),
    (runs s r .finish →
      exec .construct s = .next (ended .ok none s) ∧
      (∀ f, exec (.configure f) s = .next (ended .ok none s)) ∧
      (∀ n, exec (.transmit n) s = .next (ended .ok none s)) ∧
      exec .receive s = .next (ended .ok (some (.received r.frame.rxLen r.frame.rxBytes)) s) ∧
      exec .broadcastBeacon s = .next (ended .ok none s) ∧
      (∀ m, r.frame.mac = some m →
        exec .receiveOnce s = .next (ended .ok (some (.macAndNwk m r.frame.nwk)) s)) ∧
      (r.frame.mac = none → exec .receiveOnce s = .next (ended .parseError none s)) ∧
      (∀ seq, r.frame.acked = true → exec (.writeExpectAck seq) s = .next (ended .ok none s)) ∧
      (∀ seq, r.frame.acked = false → exec (.writeExpectAck seq) s = .next
        { standing s r .raiseTimeout r.frame with sink := s.sink ++ [.msgAckTimeout seq] }) ∧
      exec .associate s = .next (ended .ok (some (.phases true true)) s)) ∧
    (runs s r .raiseTimeout → ∀ seq, exec (.writeExpectAck seq) s = .next (ended .protocolTimeout none s))

/-- Rules R137, R139, R165, R166: TRANSMIT from TxIdle under the prompt order (logs 2, 19) and the configuration of rule R168
takes fourteen steps; the air gets `AirTx(onAirLength, T)` with `T` of `max(onAirLength − 2, 0)` bytes, first the bytes
of IN, then what the buffer held; RES is OK, the buffer holds the length and the bytes, its other bytes read as before,
the radio rests in TxIdle. -/
def Obligations.TransmitReachesTheAir : Prop :=
  ∀ (s : State) (w : Word) (q : List HostWrite) (n : Byte), ready s → s.constructed = true → hostIssues s w q →
    decode w = .command (.transmit n) → radioRests s .txIdle → airConfigured s.radio = true →
    s.host.inp.length ≤ 255 →
    ∃ (t : State) (T : Bytes), stepRun 14 s = .next t ∧
      ready t ∧ t.res = posted .ok none none s ∧ t.hostQ = q ∧ radioRests t .txIdle ∧
      t.airOut = s.airOut ++ [.frame n T] ∧ T.length = n.toNat - 2 ∧
      (∀ j, j < T.length → T[j]? = some (if h : j < s.host.inp.length then s.host.inp[j] else s.buf.read (1 + j))) ∧
      t.buf.read 0 = n ∧
      (∀ j, j < s.host.inp.length → s.host.inp[j]? = some (t.buf.read (1 + j))) ∧
      (∀ a, 1 + s.host.inp.length ≤ a → t.buf.read a = s.buf.read a) ∧
      t.session = s.session ∧ t.constructed = true ∧ t.ownExtended = s.ownExtended ∧ t.sink = s.sink ∧
      t.airIn = s.airIn

/-- Rules R138, R140, R166, R167: RECEIVE from RxIdle under the prompt order (logs 2, 19) and the configuration of rule R168
takes thirteen steps and posts the length and the bytes of the frame the air delivers. -/
def Obligations.ReceiveReturnsTheAirsFrame : Prop :=
  ∀ (s : State) (w : Word) (q : List HostWrite) (f : AirFrame) (rest : List AirFrame), ready s →
    s.constructed = true → hostIssues s w q → decode w = .command .receive → radioRests s .rxIdle →
    airConfigured s.radio = true → s.airIn = f :: rest → f.bytes.length ≤ 255 →
    ∃ t : State, stepRun 13 s = .next t ∧ ready t ∧
      t.res = posted .ok none (some (.received (BitVec.ofNat 8 f.bytes.length) f.bytes)) s ∧
      radioRests t .rxIdle ∧ t.airIn = rest ∧ t.airOut = s.airOut ∧ t.hostQ = q ∧
      t.session = s.session ∧ t.sink = s.sink ∧
      (∀ a, 1 + f.bytes.length ≤ a → t.buf.read a = s.buf.read a)

/-- Rules R210, R137, R162, R164, R165, R166: BROADCAST_BEACON from Disabled under the prompt order (logs 2, 19) and the
configuration of rule R168 takes sixteen steps and the air gets `AirTx(10, 03 08 2a ff ff ff ff 07)`. -/
def Obligations.BroadcastBeaconReachesTheAir : Prop :=
  ∀ (s : State) (w : Word) (q : List HostWrite), ready s → s.constructed = true → hostIssues s w q →
    decode w = .command .broadcastBeacon → radioRests s .disabled → airConfigured s.radio = true →
    ∃ t : State, stepRun 16 s = .next t ∧ ready t ∧ t.res = posted .ok none none s ∧ radioRests t .txIdle ∧
      t.airOut = s.airOut ++ [.frame 10 [0x03, 0x08, 0x2a, 0xff, 0xff, 0xff, 0xff, 0x07]] ∧
      t.session = s.session ∧ t.airIn = s.airIn ∧ t.sink = s.sink

/-- Rules R283, R132: with START pending and not yet taken, the poll after it ends at once in the Idle state and the
START stays pending. -/
def Obligations.StartEarlyExit : Prop :=
  ∀ (i : Instr) (s : State) (r : Run), s.pending.start = true →
    (callsTransmit i = true → runs s r (.tx .pollDone) → s.rstate = .txIdle →
      ∃ t, exec i s = .next t ∧ t = standing s r r.frame.txRet r.frame ∧ t.pending.start = true ∧
        t.airOut = s.airOut) ∧
    (callsReceive i = true → runs s r (.rx .pollDone) → s.rstate = .rxIdle →
      ∃ t, exec i s = .next t ∧ t = standing s r (.rx .readLen) r.frame ∧ t.pending.start = true ∧ t.buf = s.buf)

/-! ## The codec commands -/

/-- Rules R101, R175, R176, R177, R178: the encoder commands, constructed or not, in one controller step. -/
def Obligations.EncodersPostTheirBytes : Prop :=
  ∀ (s : State) (r : Run) (seq : Byte), runs s r .entry →
    exec (.encBeaconReq seq) s = .next (ended .ok
      (some (.bytes [0x03, 0x08, seq, 0xff, 0xff, 0xff, 0xff, 0x07])) s) ∧
    exec (.encAssocReq seq) s = .next (ended .ok (some (.bytes
      ([0x23, 0xc8, seq] ++ le16 r.frame.ops.dpan ++ le16 r.frame.ops.dshort ++ [0xff, 0xff]
        ++ le64 r.frame.ops.ext ++ [0x01, r.frame.ops.cap]))) s) ∧
    exec (.encDataReq seq) s = .next (ended .ok (some (.bytes
      ([0x23, 0xc8, seq] ++ le16 r.frame.ops.dpan ++ le16 r.frame.ops.dshort ++ le16 r.frame.ops.span
        ++ le64 r.frame.ops.ext ++ [0x04]))) s) ∧
    exec (.encAck seq) s = .next (ended .ok (some (.bytes [0x02, 0x00, seq])) s)

/-- Rules R179, R232, R235, R238, R252: the parsing commands, constructed or not, in one controller step. -/
def Obligations.ParsersPostTheirResult : Prop :=
  ∀ (s : State) (r : Run), runs s r .entry →
    (∀ m, decodeFrame r.frame.ops.inp = some m → exec .macDecode s = .next (ended .ok (some (.mac m)) s)) ∧
    (decodeFrame r.frame.ops.inp = none → exec .macDecode s = .next (ended .parseError none s)) ∧
    (∀ w, exec (.nwkParseFcf w) s = .next (ended .ok (some (.fcf (parseFcf w))) s)) ∧
    (∀ f, parsePacket r.frame.ops.inp = some f → exec .nwkParsePacket s = .next (ended .ok (some (.nwk f)) s)) ∧
    (parsePacket r.frame.ops.inp = none → exec .nwkParsePacket s = .next (ended .parseError none s)) ∧
    (∀ p h e, p ≤ r.frame.ops.inp.length → parseSecHdr r.frame.ops.inp p = some (h, e) →
      exec (.nwkParseSechdr p) s = .next (ended .ok (some (.securityHeader h e)) s)) ∧
    (∀ p, p ≤ r.frame.ops.inp.length → parseSecHdr r.frame.ops.inp p = none →
      exec (.nwkParseSechdr p) s = .next (ended .parseError none s)) ∧
    (∀ p, r.frame.ops.inp.length < p → exec (.nwkParseSechdr p) s = .next (ended .parseError none s))

/-- Rule R174(a): decoding the bytes of a frame the decoder can produce gives the frame back. -/
def Obligations.MacDecodeOfEncode : Prop :=
  ∀ m : MacFrame, decodable m → decodeFrame (encodeFrame m) = some m

/-- Rule R174(b): encoding a decoded frame gives its bytes back, if the reserved bits 9:7 of its frame control are
zero. -/
def Obligations.MacEncodeOfDecode : Prop :=
  ∀ (B : Bytes) (m : MacFrame) (a b : Byte) (rest : Bytes), decodeFrame B = some m → B = a :: b :: rest →
    (b ++ a : Half).extractLsb' 7 3 = 0 → encodeFrame m = B

/-- Rules R91 to R98, R100, R172, R173, R174(a): what the decoder produces is a frame of the kind that survives the round
trip, its header fields the bits of the frame control, bit by bit, and its sequence number the third byte; bits 9:7 of
the frame control are ignored: two byte strings that differ in them alone decode to the same answer; and the bytes of
any record are its frame control, bit by bit, its sequence number, its addressing fields, its content and its
payload. -/
def Obligations.MacDecodedIsDecodable : Prop :=
  (∀ (B : Bytes) (m : MacFrame), decodeFrame B = some m →
    decodable m ∧ ∃ a b rest, B = a :: b :: m.seq :: rest ∧ fcCarries (b ++ a) m) ∧
  (∀ (a b a' b' : Byte) (rest : Bytes), (b ++ a : Half).extractLsb' 0 7 = (b' ++ a' : Half).extractLsb' 0 7 →
    (b ++ a : Half).extractLsb' 10 6 = (b' ++ a' : Half).extractLsb' 10 6 →
    decodeFrame (a :: b :: rest) = decodeFrame (a' :: b' :: rest)) ∧
  ∀ m : MacFrame, ∃ fc : Half, fcCarries fc m ∧ fc.extractLsb' 7 3 = 0 ∧
    encodeFrame m = le16 fc ++ ([m.seq] ++ (addressingWire m ++ (contentWire m.content ++ m.payload)))

/-- Rules R111, R231: the NWK frame control's fields, bit by bit, and that its bits 15:14 are ignored. -/
def Obligations.NwkFrameControlFields : Prop :=
  (∀ w : Half,
    (parseFcf w).protocolVersion = w.extractLsb' 2 4 ∧
    (parseFcf w).multicast = w.getLsbD 8 ∧ (parseFcf w).security = w.getLsbD 9 ∧
    (parseFcf w).sourceRoute = w.getLsbD 10 ∧ (parseFcf w).destination = w.getLsbD 11 ∧
    (parseFcf w).sourceAddress = w.getLsbD 12 ∧ (parseFcf w).endDeviceInitiator = w.getLsbD 13 ∧
    ((parseFcf w).frameType = .nwkData ↔ w.extractLsb' 0 2 = 0) ∧
    ((parseFcf w).frameType = .nwkCommand ↔ w.extractLsb' 0 2 = 1) ∧
    ((parseFcf w).frameType = .nwkReserved ↔ w.extractLsb' 0 2 = 2) ∧
    ((parseFcf w).frameType = .interPan ↔ w.extractLsb' 0 2 = 3) ∧
    ((parseFcf w).discoverRoute = .suppress ↔ w.extractLsb' 6 2 = 0) ∧
    ((parseFcf w).discoverRoute = .enable ↔ w.extractLsb' 6 2 = 1) ∧
    ((parseFcf w).discoverRoute = .reserved2 ↔ w.extractLsb' 6 2 = 2) ∧
    ((parseFcf w).discoverRoute = .reserved3 ↔ w.extractLsb' 6 2 = 3)) ∧
  ∀ w x : Half, w.extractLsb' 0 14 = x.extractLsb' 0 14 → parseFcf w = parseFcf x

/-- Rules R113, R234, R252: a security header laid out on the wire after any bytes parses to its fields, its MIC being the
last four bytes of the whole packet; a header cut short, fewer bytes being left from the start than its control byte asks
for, or none at all, is rejected. -/
def Obligations.SecurityHeaderParses : Prop :=
  (∀ (pre post : Bytes) (c ksn : Byte) (fcnt : Word) (xsrc : Dword),
    let B := pre ++ (secHeaderWire c fcnt xsrc ksn ++ post)
    parseSecHdr B pre.length = some
      (secHeaderRead c fcnt xsrc ksn (B.drop (B.length - 4)), pre.length + (secHeaderWire c fcnt xsrc ksn).length)) ∧
  (∀ (B : Bytes) (p : Nat) (c : Byte), B[p]? = some c → B.length - p < (if c.getLsbD 5 then 14 else 6) →
    parseSecHdr B p = none) ∧
  ∀ (B : Bytes) (p : Nat), B.length ≤ p → parseSecHdr B p = none

/-- Rules R115, R237, R239(a): of a secured packet that parses, payload and MIC are the packet's tail. -/
def Obligations.SecuredPacketTail : Prop :=
  ∀ (B : Bytes) (f : NwkFrame) (h : SecurityHeader), parsePacket B = some f → f.securityHeader = some h →
    h.mic = B.drop (B.length - 4) ∧ h.mic.length = 4 ∧ (f.payload ++ h.mic) <:+ B

/-- Rules R110, R111, R112, R113, R237, R239(c): a packet laid out on the wire parses to its fields, each with its value,
whatever its flags, its relays, its payload and, where secured, its security header and MIC; and in every packet that
parses an optional field is present exactly when its flag is set. -/
def Obligations.NwkOptionalFieldsFollowFlags : Prop :=
  (∀ (fc dst src : Half) (radius seq : Byte) (xdst xsrc : Dword) (mc idx : Byte) (relays payload : Bytes),
    relays.length ≤ 255 →
    (fc.getLsbD 9 = false →
      parsePacket (nwkHeaderWire fc dst src radius seq xdst xsrc mc idx relays ++ payload) =
        some (nwkRead fc dst src radius seq xdst xsrc mc none payload)) ∧
    ∀ (c ksn : Byte) (fcnt : Word) (nsrc : Dword) (mic : Bytes), fc.getLsbD 9 = true → mic.length = 4 →
      parsePacket (nwkHeaderWire fc dst src radius seq xdst xsrc mc idx relays ++
          (secHeaderWire c fcnt nsrc ksn ++ (payload ++ mic))) =
        some (nwkRead fc dst src radius seq xdst xsrc mc (some (secHeaderRead c fcnt nsrc ksn mic)) payload)) ∧
  ∀ (B : Bytes) (f : NwkFrame), parsePacket B = some f →
    f.extDst.isSome = f.fcf.destination ∧ f.extSrc.isSome = f.fcf.sourceAddress ∧
    f.multicastControl.isSome = f.fcf.multicast ∧ f.securityHeader.isSome = f.fcf.security ∧
    ∀ h, f.securityHeader = some h → h.extendedSource.isSome = h.extendedNonce

/-- Rules R237, R239(b), R239(e): header, payload and MIC make up the packet, the payload beginning where the header ends;
the header's length follows from the flags, the relay count, which is the packet's own byte where there is a source route,
and the extended nonce. -/
def Obligations.NwkLengthsAddUp : Prop :=
  ∀ (B : Bytes) (f : NwkFrame), parsePacket B = some f →
    ∃ (relays : Nat) (nonce : Bool),
      (f.fcf.sourceRoute = true → ∃ n : Byte, B[nwkRouteIndex f.fcf]? = some n ∧ relays = n.toNat) ∧
      (∀ h, f.securityHeader = some h → nonce = h.extendedNonce) ∧
      B.length = nwkHeaderLength f.fcf relays nonce + f.payload.length + nwkMicLength f.fcf ∧
      f.payload = (B.drop (nwkHeaderLength f.fcf relays nonce)).take f.payload.length

/-! ## The session engine -/

/-- Rules R200 to R203: every line of ReceiveOnceProc after its reception, in every command that calls it. -/
def Obligations.ReceiveOnceLines : Prop :=
  ∀ (i : Instr) (s : State) (r : Run), callsOnce i = true →
    (runs s r (.once .decode) →
      (decodeFrame (r.frame.rxBytes.take (r.frame.rxLen.toNat - 2)) = none →
        exec i s = .next (standing s r (.once .logParse) { r.frame with mac := none, nwk := .notForwarded })) ∧
      ∀ m, decodeFrame (r.frame.rxBytes.take (r.frame.rxLen.toNat - 2)) = some m →
        (addressedToMe m s = false →
          exec i s = .next (standing s r r.frame.onceRet { r.frame with mac := some m, nwk := .notForwarded })) ∧
        (addressedToMe m s = true → m.ackRequest = false →
          exec i s = .next (standing s r (.once .dispatch) { r.frame with mac := some m, nwk := .notForwarded })) ∧
        (addressedToMe m s = true → m.ackRequest = true →
          exec i s = .next (standing s r (.tx .check)
            { r.frame with
              mac := some m
              nwk := .notForwarded
              txBytes := [0x02, 0x00, m.seq]
              txOnAir := 5
              txRet := .once .dispatch }))) ∧
    (runs s r (.once .logParse) → exec i s = .next
      { standing s r r.frame.onceRet r.frame with sink := s.sink ++ [.msgParseError] }) ∧
    (runs s r (.once .dispatch) → ∀ m, r.frame.mac = some m →
      exec i s = .next { standing s r (if m.frameType = .data then .once .nwk else r.frame.onceRet) r.frame with
        session := { s.session with
          assignedShort := match m.content with
            | .associationResponse a _ => some a
            | _ => s.session.assignedShort } }) ∧
    (runs s r (.once .nwk) → ∀ m, r.frame.mac = some m →
      (∀ f, parsePacket m.payload = some f →
        exec i s = .next (standing s r r.frame.onceRet { r.frame with nwk := .parsed f })) ∧
      (parsePacket m.payload = none →
        exec i s = .next (standing s r (.once .logNwk) { r.frame with nwk := .parseError }))) ∧
    (runs s r (.once .logNwk) → exec i s = .next
      { standing s r r.frame.onceRet r.frame with sink := s.sink ++ [.msgNwkParseError] })

/-- Rule R200: which received frames are addressed to the device. -/
def Obligations.AddressMatch : Prop :=
  ∀ (m : MacFrame) (s : State),
    (m.dst = .none → addressedToMe m s = false) ∧
    (∀ p a, m.dst = .short p a → (addressedToMe m s = true ↔ s.session.assignedShort = some a)) ∧
    (∀ p a, m.dst = .extended p a →
      (addressedToMe m s = true ↔ s.session.extActive = true ∧ a = s.ownExtended))

/-- Rules R200, R201, R203, R211: under the prompt order (logs 2, 19) and the configuration of rule R168, RECEIVE_ONCE from RxIdle
on a frame that decodes, is addressed to the device, asks for an acknowledgement and is no Data frame takes twenty-eight
steps: the acknowledgement `AirTx(5, 02 00 seq)` reaches the air, an association response's short address is assigned,
the frame is posted, the radio rests in TxIdle. -/
def Obligations.ReceiveOnceAcknowledges : Prop :=
  ∀ (s : State) (w : Word) (q : List HostWrite) (f : AirFrame) (rest : List AirFrame) (m : MacFrame), ready s →
    s.constructed = true → hostIssues s w q → decode w = .command .receiveOnce → radioRests s .rxIdle →
    airConfigured s.radio = true → s.airIn = f :: rest → f.bytes.length ≤ 255 →
    decodeFrame (f.bytes.take (f.bytes.length - 2)) = some m → addressedToMe m s = true → m.ackRequest = true →
    m.frameType ≠ .data →
    ∃ t : State, stepRun 28 s = .next t ∧ ready t ∧
      t.session = { s.session with
        assignedShort := match m.content with
          | .associationResponse a _ => some a
          | _ => s.session.assignedShort } ∧
      t.res = posted .ok none (some (.macAndNwk m .notForwarded)) t ∧
      t.airOut = s.airOut ++ [.frame 5 [0x02, 0x00, m.seq]] ∧ t.airIn = rest ∧ t.sink = s.sink ∧ t.hostQ = q ∧
      radioRests t .txIdle

/-- Rules R204, R205: every line of WriteAndExpectAckProc beside its calls, in every command that calls it. -/
def Obligations.WaitLines : Prop :=
  ∀ (i : Instr) (s : State) (r : Run), callsWait i = true →
    (runs s r (.wait .check) → r.frame.waitBytes.length ≤ 253 →
      exec i s = .next (standing s r (.tx .check)
        { r.frame with
          txBytes := r.frame.waitBytes
          txOnAir := BitVec.ofNat 8 (r.frame.waitBytes.length + 2)
          txRet := .wait .loop })) ∧
    (runs s r (.wait .check) → 253 < r.frame.waitBytes.length → exec i s = .next (stopped .bufferOverflow s)) ∧
    (runs s r (.wait .loop) → r.frame.k < 30 →
      exec i s = .next (standing s r (.rx .shorts)
        { r.frame with onceRet := .wait .tally, rxRet := .once .decode })) ∧
    (runs s r (.wait .loop) → 30 ≤ r.frame.k →
      exec i s = .next (standing s r r.frame.waitRet { r.frame with acked := false })) ∧
    (runs s r (.wait .tally) →
      (∀ m, r.frame.mac = some m → m.frameType = .ack → m.seq = r.frame.waitSeq →
        exec i s = .next (standing s r r.frame.waitRet { r.frame with k := r.frame.k + 1, acked := true })) ∧
      ((∀ m, r.frame.mac = some m → m.frameType = .ack → m.seq ≠ r.frame.waitSeq) →
        exec i s = .next (standing s r (.wait .loop) { r.frame with k := r.frame.k + 1 })))

/-- Rules R205, R212, R214(a), R253: under the prompt order (logs 2, 19), a wait whose thirty receptions are all frames for
others ends with PROTOCOL_TIMEOUT after exactly thirty of them: no 31st frame is taken, nothing is sent, and the one
message logged is the timeout's. -/
def Obligations.WaitTimesOutAfterThirtyAttempts : Prop :=
  ∀ (s : State) (r : Run) (seq : Byte) (fs rest : List AirFrame), runs s r (.wait .loop) → r.frame.k = 0 →
    r.frame.waitRet = .finish → r.frame.waitSeq = seq → decode r.frame.ops.cmd = .command (.writeExpectAck seq) →
    s.turns = [] → radioRests s .rxIdle → airConfigured s.radio = true → s.airIn = fs ++ rest → fs.length = 30 →
    (∀ f ∈ fs, failsQuietly s seq f) →
    ∃ t : State, stepRun (30 * attemptSteps + 3) s = .next t ∧ ready t ∧
      t.res = posted .protocolTimeout none none s ∧ t.airIn = rest ∧ t.airOut = s.airOut ∧
      t.sink = s.sink ++ [.msgAckTimeout seq] ∧ t.session = s.session

/-- Rules R205, R212, R214(d): under the prompt order (logs 2, 19) and the configuration of rule R168, WRITE_EXPECT_ACK from
RxIdle of at most 253 bytes, acknowledged by the next frame, takes thirty-two steps: `AirTx(len + 2, IN)` reaches the air,
one reception follows, the status is OK, no session register changes, nothing is logged. -/
def Obligations.WriteExpectAckCompletes : Prop :=
  ∀ (s : State) (w : Word) (q : List HostWrite) (seq : Byte) (f : AirFrame) (rest : List AirFrame), ready s →
    s.constructed = true → hostIssues s w q → decode w = .command (.writeExpectAck seq) → radioRests s .rxIdle →
    airConfigured s.radio = true → s.host.inp.length ≤ 253 → s.airIn = f :: rest → acknowledges f seq →
    ∃ t : State, stepRun 32 s = .next t ∧ ready t ∧ t.res = posted .ok none none s ∧
      t.airOut = s.airOut ++ [.frame (BitVec.ofNat 8 (s.host.inp.length + 2)) s.host.inp] ∧ t.airIn = rest ∧
      t.session = s.session ∧ t.sink = s.sink ∧ t.hostQ = q ∧ radioRests t .rxIdle

/-- Rules R213, R68, R255: every line of ASSOCIATE beside its first and last. That writing RES.value and the raise after it
are one step is the model's reading, log 20. -/
def Obligations.AssociateLines : Prop :=
  ∀ (s : State) (r : Run),
    (runs s r (.assoc .request) → exec .associate s = .next (standing s r (.wait .check)
      { r.frame with
        waitSeq := 43
        waitBytes := [0x23, 0xc8, 0x2b] ++ le16 r.frame.ops.dpan ++ le16 r.frame.ops.dshort ++ [0xff, 0xff]
          ++ le64 s.ownExtended ++ [0x01, r.frame.ops.cap]
        k := 0
        waitRet := .assoc .afterRequest })) ∧
    (runs s r (.assoc .afterRequest) → r.frame.acked = true →
      exec .associate s = .next { standing s r (.assoc .setAcked) r.frame with
        session := { s.session with extActive := true } }) ∧
    (runs s r (.assoc .afterRequest) → r.frame.acked = false →
      exec .associate s = .next { standing s r (.assoc .abort) r.frame with
        sink := s.sink ++ [.msgAssocTimeout] }) ∧
    (runs s r (.assoc .abort) →
      exec .associate s = .next (ended .protocolTimeout (some (.phases false false)) s)) ∧
    (runs s r (.assoc .setAcked) → exec .associate s = .next { standing s r (.assoc .logAcked) r.frame with
      session := { s.session with handshake := .assocAcked } }) ∧
    (runs s r (.assoc .logAcked) → exec .associate s = .next { standing s r (.assoc .dataRequest) r.frame with
      sink := s.sink ++ [.msgAssocAcked] }) ∧
    (runs s r (.assoc .dataRequest) → exec .associate s = .next (standing s r (.wait .check)
      { r.frame with
        waitSeq := 44
        waitBytes := [0x23, 0xc8, 0x2c] ++ le16 r.frame.ops.dpan ++ le16 r.frame.ops.dshort
          ++ le16 r.frame.ops.span ++ le64 s.ownExtended ++ [0x04]
        k := 0
        waitRet := .assoc .afterDataRequest })) ∧
    (runs s r (.assoc .afterDataRequest) → r.frame.acked = true →
      exec .associate s = .next { standing s r (.assoc .logDataReqAcked) r.frame with
        session := { s.session with handshake := .dataReqAcked } }) ∧
    (runs s r (.assoc .logDataReqAcked) → exec .associate s = .next { standing s r .finish r.frame with
      sink := s.sink ++ [.msgDataReqAcked] }) ∧
    (runs s r (.assoc .afterDataRequest) → r.frame.acked = false →
      exec .associate s = .next { standing s r (.assoc .fail) r.frame with
        sink := s.sink ++ [.msgDataReqTimeout] }) ∧
    (runs s r (.assoc .fail) →
      exec .associate s = .next (ended .protocolTimeout (some (.phases true false)) s))

/-- Rules R205, R213, R214: under the prompt order (logs 2, 19) and the configuration of rule R168, ASSOCIATE from RxIdle whose
two requests are each acknowledged by the next frame takes sixty-eight steps: the two requests reach the air in order,
the extended address becomes active, the phase is the last one, two messages are logged, both phases are posted. -/
def Obligations.AssociateCompletes : Prop :=
  ∀ (s : State) (w : Word) (q : List HostWrite) (f g : AirFrame) (rest : List AirFrame), ready s →
    s.constructed = true → hostIssues s w q → decode w = .command .associate → radioRests s .rxIdle →
    airConfigured s.radio = true → s.airIn = f :: g :: rest → acknowledges f 43 → acknowledges g 44 →
    ∃ t : State, stepRun 68 s = .next t ∧ ready t ∧
      t.session = { s.session with extActive := true, handshake := .dataReqAcked } ∧
      t.res = posted .ok none (some (.phases true true)) t ∧
      t.airOut = s.airOut ++
        [.frame 21 ([0x23, 0xc8, 0x2b] ++ le16 s.host.dpan ++ le16 s.host.dshort ++ [0xff, 0xff]
          ++ le64 s.ownExtended ++ [0x01, s.host.cap]),
         .frame 20 ([0x23, 0xc8, 0x2c] ++ le16 s.host.dpan ++ le16 s.host.dshort ++ le16 s.host.span
          ++ le64 s.ownExtended ++ [0x04])] ∧
      t.sink = s.sink ++ [.msgAssocAcked, .msgDataReqAcked] ∧ t.airIn = rest ∧ radioRests t .rxIdle

/-! ## What every step keeps -/

/-- Rules R31, R60, R67: every step of every agent keeps the packet buffer's canonical form, no index at or past 256. -/
def Obligations.BufferStaysCanonical : Prop :=
  ∀ (s t : State), step s = .next t → BufferOk s → BufferOk t

/-- Rules R22, R23, R205: every step of every agent leaves the sequencer at a position of the running command's
micro-program, its attempt counter at most 30. -/
def Obligations.SequencerStaysInItsProgram : Prop :=
  ∀ (s t : State), step s = .next t → seqrOk s.seqr = true → seqrOk t.seqr = true

/-- Rules R67, R254: with the sequencer in its micro-program, every step answers a next state: no fault, no refusal. -/
def Obligations.EveryStepGoesOn : Prop :=
  ∀ s : State, seqrOk s.seqr = true → ∃ t, step s = .next t

/-- Rules R250, R255, R256, R257: the codes of RES.status and RES.halt; every step of every agent keeps RES saying what the
block does. -/
def Obligations.ResultRecordStaysTrue : Prop :=
  (Status.code .ok = 0x00 ∧ Status.code .rangeError = 0x01 ∧ Status.code .parseError = 0x02 ∧
    Status.code .protocolTimeout = 0x03 ∧ Status.code .halted = 0x80 ∧ Status.code .busy = 0xff) ∧
  (HaltReason.code .illegalCommand = 0x81 ∧ HaltReason.code .notConstructed = 0x82 ∧
    HaltReason.code .alreadyConstructed = 0x83 ∧ HaltReason.code .bufferOverflow = 0x84) ∧
  ∀ (s t : State), step s = .next t → ResOk s → ResOk t

/-- Rules R38, R42, R133: with the sequencer in its micro-program, every step keeps a constructed block's PACKETPTR and
PCNF1 programmed. -/
def Obligations.ConstructedStaysProgrammed : Prop :=
  ∀ (s t : State), step s = .next t → seqrOk s.seqr = true → ProgrammedOk s → ProgrammedOk t

/-- Rules R27, R29, R213: with the sequencer in its micro-program, every step keeps the extended address active in every
handshake phase. -/
def Obligations.HandshakeNeedsActiveAddress : Prop :=
  ∀ (s t : State), step s = .next t → seqrOk s.seqr = true → PhaseOk s → PhaseOk t

/-- Rules R50, R52: the state at reset is sound. -/
def Obligations.ResetIsSound : Prop :=
  BufferOk State.reset ∧ seqrOk State.reset.seqr = true ∧ ResOk State.reset ∧ ProgrammedOk State.reset ∧
    PhaseOk State.reset ∧ DispatchOk State.reset ∧ State.reset.radio.shorts = 0

/-- Rules R24, R257: a halt is permanent: after it no step of any agent changes the halt, RES, the sequencer, the session
registers, `constructed`, `ownExtended` or the sink; and the controller takes no step: its turn on a halted block changes
nothing (that the turn is used up is the model's, log 27). -/
def Obligations.HaltIsPermanent : Prop :=
  (∀ (s t : State), step s = .next t → s.halted ≠ none →
    t.halted = s.halted ∧ t.res = s.res ∧ t.seqr = s.seqr ∧ t.session = s.session ∧
    t.constructed = s.constructed ∧ t.ownExtended = s.ownExtended ∧ t.sink = s.sink) ∧
  ∀ (s : State) (ts : List Turn), s.halted ≠ none → s.turns = .controller :: ts → step s = .next { s with turns := ts }

/-- Rules R25, R26, R27, R29, R201, R214(b), R214(c): where the block's lasting registers may change. With the sequencer in
its micro-program the frame dispatched is one addressed to the device, which every step keeps. -/
def Obligations.LastingRegistersChangeOnlyWhere : Prop :=
  ∀ (s t : State), step s = .next t →
    (s.constructed = true → t.constructed = true) ∧
    (t.constructed ≠ s.constructed → ∃ r, runs s r (.construct .setConstructed)) ∧
    (t.ownExtended ≠ s.ownExtended → ∃ r, runs s r (.construct .setExtended)) ∧
    (t.session.assignedShort ≠ s.session.assignedShort →
      ∃ r, runs s r (.construct .initSession) ∨
        (runs s r (.once .dispatch) ∧ ∃ m a st, r.frame.mac = some m ∧ m.content = .associationResponse a st ∧
          t.session.assignedShort = some a)) ∧
    (seqrOk s.seqr = true → DispatchOk s → DispatchOk t ∧
      (t.session.assignedShort ≠ s.session.assignedShort →
        ∃ r, runs s r (.construct .initSession) ∨
          (runs s r (.once .dispatch) ∧ ∃ m, r.frame.mac = some m ∧ addressedToMe m s = true))) ∧
    (t.session.extActive ≠ s.session.extActive →
      ∃ r, runs s r (.construct .initSession) ∨ (runs s r (.assoc .afterRequest) ∧ r.frame.acked = true)) ∧
    (t.session.handshake ≠ s.session.handshake →
      ∃ r, runs s r (.construct .initSession) ∨ runs s r (.assoc .setAcked) ∨
        (runs s r (.assoc .afterDataRequest) ∧ r.frame.acked = true))

/-- Rules R20, R33, R60, R161: what a controller step of any command leaves unchanged: the host's registers and queue, the
radio's state and latched transmission, the identity words, the air, the interleaving; every byte of the buffer but the
length byte at TransmitBlocking's first store and the frame's bytes at its second; every radio register but SHORTS,
PACKETPTR, PCNF1 and the five that CONFIGURE writes; every task register but TXEN, RXEN and START. -/
def Obligations.ControllerStepFrame : Prop :=
  ∀ (i : Instr) (s t : State), exec i s = .next t →
    t.host = s.host ∧ t.hostQ = s.hostQ ∧ t.turns = s.turns ∧ t.draws = s.draws ∧ t.rstate = s.rstate ∧
    t.txLen = s.txLen ∧ t.txImage = s.txImage ∧ t.airConf = s.airConf ∧ t.ficrHi = s.ficrHi ∧
    t.ficrLo = s.ficrLo ∧ t.airIn = s.airIn ∧ t.airOut = s.airOut ∧
    { t.radio with
      shorts := s.radio.shorts
      packetPtr := s.radio.packetPtr
      pcnf1 := s.radio.pcnf1
      frequency := s.radio.frequency
      mode := s.radio.mode
      pcnf0 := s.radio.pcnf0
      crcCnf := s.radio.crcCnf
      crcPoly := s.radio.crcPoly } = s.radio ∧
    { t.tasks with
      txen := s.tasks.txen
      rxen := s.tasks.rxen
      start := s.tasks.start
      writes := s.tasks.writes } = s.tasks ∧
    (∀ a, t.buf.read a ≠ s.buf.read a →
      ∃ r, (runs s r (.tx .writeLen) ∧ a = 0 ∧ t.buf.read a = r.frame.txOnAir) ∨
        (runs s r (.tx .writeBytes) ∧ 1 ≤ a ∧ r.frame.txBytes[a - 1]? = some (t.buf.read a)))
end

