-- ==== Sys2Proof/Laws/Params.lean ====
section
/-! SUPPORT. The parameters of this hardware, one by one (rule R7), and what the operations under parameters are with
them: the machine's own. -/

namespace Sys2Proof.Machine

/-! ## The table of rule R7 -/

@[simp] theorem Params.spec_bufCap : Params.spec.bufCap = Config.bufCap := rfl
@[simp] theorem Params.spec_maxLen : Params.spec.maxLen = Config.maxLen := rfl
@[simp] theorem Params.spec_freqMin : Params.spec.freqMin = Config.freqMin := rfl
@[simp] theorem Params.spec_freqMax : Params.spec.freqMax = Config.freqMax := rfl
@[simp] theorem Params.spec_freqBaseHi : Params.spec.freqBaseHi = Config.freqBaseHi := rfl
@[simp] theorem Params.spec_freqBaseLo : Params.spec.freqBaseLo = Config.freqBaseLo := rfl
@[simp] theorem Params.spec_ackAttempts : Params.spec.ackAttempts = Config.ackAttempts := rfl
@[simp] theorem Params.spec_assocSeq : Params.spec.assocSeq = Config.assocSeq := rfl
@[simp] theorem Params.spec_dataReqSeq : Params.spec.dataReqSeq = Config.dataReqSeq := rfl
@[simp] theorem Params.spec_micLen : Params.spec.micLen = Config.micLen := rfl
@[simp] theorem Params.spec_beaconSeq : Params.spec.beaconSeq = Config.beaconSeq := rfl
@[simp] theorem Params.spec_fcsLen : Params.spec.fcsLen = Config.fcsLen := rfl
@[simp] theorem Params.spec_rxTrim : Params.spec.rxTrim = Config.rxTrim := rfl
@[simp] theorem Params.spec_assocSrcPan : Params.spec.assocSrcPan = Config.assocSrcPan := rfl
@[simp] theorem Params.spec_dataReqCompress : Params.spec.dataReqCompress = Config.dataReqCompress := rfl
@[simp] theorem Params.spec_acceptedVersions : Params.spec.acceptedVersions = Config.acceptedVersions := rfl
@[simp] theorem Params.spec_startVisibleAtomic : Params.spec.startVisibleAtomic = Config.startVisibleAtomic := rfl
@[simp] theorem Params.spec_crossIdle : Params.spec.crossIdle = Config.crossIdle := rfl
@[simp] theorem Params.spec_bufAddr : Params.spec.bufAddr = Config.bufAddr := rfl
@[simp] theorem Params.spec_radioBase : Params.spec.radioBase = Config.radioBase := rfl
@[simp] theorem Params.spec_offset : Params.spec.offset = Reg.offset := rfl
@[simp] theorem Params.spec_fields : Params.spec.fields = FieldMap.spec := rfl
@[simp] theorem Params.spec_ficrBase : Params.spec.ficrBase = Config.ficrBase := rfl
@[simp] theorem Params.spec_devidHiOff : Params.spec.devidHiOff = Config.devidHiOff := rfl
@[simp] theorem Params.spec_devidLoOff : Params.spec.devidLoOff = Config.devidLoOff := rfl
@[simp] theorem Params.spec_resetValue : Params.spec.resetValue = Reg.resetValue := rfl

@[simp] theorem Params.spec_regWidth : Params.spec.regWidth = Config.regWidth := rfl
@[simp] theorem Params.spec_addrWidth : Params.spec.addrWidth = Config.addrWidth := rfl

/-! ## The widths of this hardware keep every 32-bit value -/

@[simp] theorem Params.spec_keep (v : Word) : Params.spec.keep v = v := rfl
@[simp] theorem Params.spec_atReset (r : Reg) : Params.spec.atReset r = r.resetValue := rfl
@[simp] theorem Params.spec_bufPointer : Params.spec.bufPointer = Config.bufAddr := rfl

/-- Where a register lies (rule R61). -/
theorem Reg.address_eq (r : Reg) : r.address = 0x40001000 + r.offset := by cases r <;> decide

/-- A write of a register on this hardware stores what the register does with the whole word (rule R72). -/
theorem regWrite_eq (r : Reg) (v : Word) (s : State) : regWrite r v s = regStore r v s := rfl

/-! ## The field table of rule R33 -/

@[simp] theorem FieldMap.spec_trigger : FieldMap.spec.trigger = Field.trigger := rfl
@[simp] theorem FieldMap.spec_flag : FieldMap.spec.flag = Field.flag := rfl
@[simp] theorem FieldMap.spec_whole : FieldMap.spec.whole = Field.whole := rfl
@[simp] theorem FieldMap.spec_crcOk : FieldMap.spec.crcOk = Field.crcOk := rfl
@[simp] theorem FieldMap.spec_rxMatch : FieldMap.spec.rxMatch = Field.rxMatch := rfl
@[simp] theorem FieldMap.spec_rxCrc : FieldMap.spec.rxCrc = Field.rxCrc := rfl
@[simp] theorem FieldMap.spec_dai : FieldMap.spec.dai = Field.dai := rfl
@[simp] theorem FieldMap.spec_frequency : FieldMap.spec.frequency = Field.frequency := rfl
@[simp] theorem FieldMap.spec_map : FieldMap.spec.map = Field.map := rfl
@[simp] theorem FieldMap.spec_txPower : FieldMap.spec.txPower = Field.txPower := rfl
@[simp] theorem FieldMap.spec_mode : FieldMap.spec.mode = Field.mode := rfl
@[simp] theorem FieldMap.spec_lflen : FieldMap.spec.lflen = Field.lflen := rfl
@[simp] theorem FieldMap.spec_s0len : FieldMap.spec.s0len = Field.s0len := rfl
@[simp] theorem FieldMap.spec_s1len : FieldMap.spec.s1len = Field.s1len := rfl
@[simp] theorem FieldMap.spec_s1incl : FieldMap.spec.s1incl = Field.s1incl := rfl
@[simp] theorem FieldMap.spec_plen : FieldMap.spec.plen = Field.plen := rfl
@[simp] theorem FieldMap.spec_crcinc : FieldMap.spec.crcinc = Field.crcinc := rfl
@[simp] theorem FieldMap.spec_maxlen : FieldMap.spec.maxlen = Field.maxlen := rfl
@[simp] theorem FieldMap.spec_statlen : FieldMap.spec.statlen = Field.statlen := rfl
@[simp] theorem FieldMap.spec_balen : FieldMap.spec.balen = Field.balen := rfl
@[simp] theorem FieldMap.spec_prefixA : FieldMap.spec.prefixA = Field.prefixA := rfl
@[simp] theorem FieldMap.spec_prefixB : FieldMap.spec.prefixB = Field.prefixB := rfl
@[simp] theorem FieldMap.spec_prefixC : FieldMap.spec.prefixC = Field.prefixC := rfl
@[simp] theorem FieldMap.spec_prefixD : FieldMap.spec.prefixD = Field.prefixD := rfl
@[simp] theorem FieldMap.spec_txAddress : FieldMap.spec.txAddress = Field.txAddress := rfl
@[simp] theorem FieldMap.spec_rxAddresses : FieldMap.spec.rxAddresses = Field.rxAddresses := rfl
@[simp] theorem FieldMap.spec_crcLen : FieldMap.spec.crcLen = Field.crcLen := rfl
@[simp] theorem FieldMap.spec_skipaddr : FieldMap.spec.skipaddr = Field.skipaddr := rfl
@[simp] theorem FieldMap.spec_crcPoly : FieldMap.spec.crcPoly = Field.crcPoly := rfl
@[simp] theorem FieldMap.spec_crcInit : FieldMap.spec.crcInit = Field.crcInit := rfl
@[simp] theorem FieldMap.spec_tifs : FieldMap.spec.tifs = Field.tifs := rfl
@[simp] theorem FieldMap.spec_rssi : FieldMap.spec.rssi = Field.rssi := rfl
@[simp] theorem FieldMap.spec_state : FieldMap.spec.state = Field.state := rfl
@[simp] theorem FieldMap.spec_power : FieldMap.spec.power = Field.power := rfl

/-! ## Commands -/

/-- A command under the parameters of this hardware is the command. -/
@[simp] theorem execWith_spec : execWith Params.spec = exec := by
  funext i s; cases i <;> rfl

/-- A step under the parameters of this hardware is the step. -/
@[simp] theorem stepWith_spec : stepWith Params.spec = step := by
  funext s; simp only [stepWith, execWith_spec]; rfl

end Sys2Proof.Machine
end

