-- ==== Sys2Proof/Laws/RegMap.lean ====
section
/-! SUPPORT. What reading and writing the fields of the register map comes to, in bits. -/

namespace Sys2Proof.Machine

/-- A word shows a radio state when its low four bits are the state's code (rules R45, R132). -/
theorem shows_eq (w : Word) (r : RadioState) : shows w r = decide (w.extractLsb' 0 4 = r.code) := by
  simp only [shows, Params.spec_fields, FieldMap.spec_state, Field.get, Field.state, BitVec.toNat_inj]

/-- The flag of an event is bit 0 of its register (rule R35). -/
theorem setEvent_eq (w : Word) : setEvent w = w ||| 1 := rfl

/-- The word of FREQUENCY, its base-select bit being bit 8 (rules R39, R135). -/
theorem freqEncode_eq (f : Nat) :
    freqEncode f = if 2400 ≤ f then BitVec.ofNat 32 (f - 2400) else BitVec.ofNat 32 (f - 2360) ||| 0x100 := by
  simp [freqEncode, Field.put, Field.frequency, Field.map, Config.freqBaseHi, Config.freqBaseLo]

/-- STATE reads as the code of the radio's state (rule R45). -/
@[simp] theorem regRead_state (s : State) : regRead .state s = s.rstate.code.setWidth 32 := by
  cases h : s.rstate <;> simp [regRead, h] <;> rfl

/-- The received-packet details, bit by bit (rule R37). -/
theorem rxDetails_eq (f : AirFrame) (r : RadioRegs) :
    rxDetails f r = { r with
      crcStatus := if f.crcOk then 1 else 0
      rxMatch := f.rxMatch.setWidth 32
      rxCrc := f.rxCrc.setWidth 32
      dai := f.dai.setWidth 32 } := by
  cases h : f.crcOk <;>
    simp [rxDetails, Field.put, Field.crcOk, Field.rxMatch, Field.rxCrc, Field.dai, h, BitVec.ofNat_toNat]

/-- The frequencies CONFIGURE accepts (rule R134). -/
theorem freqValid_iff (f : Nat) : freqValid f = true ↔ 2360 ≤ f ∧ f ≤ 2500 := by
  simp only [freqValid, Bool.and_eq_true, decide_eq_true_eq]; rfl

end Sys2Proof.Machine
end

