-- ==== Sys2Proof/Laws/State.lean ====
section
/-! SUPPORT. One lemma per field per update of State, so that no proof unfolds a record update. -/

namespace Sys2Proof.Machine

/-! ## goto r l s -/

@[simp] theorem goto_host (r : Run) (l : Line) (s : State) :
    (goto r l s).host = s.host := rfl
@[simp] theorem goto_res (r : Run) (l : Line) (s : State) :
    (goto r l s).res = s.res := rfl
@[simp] theorem goto_seqr (r : Run) (l : Line) (s : State) :
    (goto r l s).seqr = .running { r with line := l } := rfl
@[simp] theorem goto_halted (r : Run) (l : Line) (s : State) :
    (goto r l s).halted = s.halted := rfl
@[simp] theorem goto_constructed (r : Run) (l : Line) (s : State) :
    (goto r l s).constructed = s.constructed := rfl
@[simp] theorem goto_ownExtended (r : Run) (l : Line) (s : State) :
    (goto r l s).ownExtended = s.ownExtended := rfl
@[simp] theorem goto_session (r : Run) (l : Line) (s : State) :
    (goto r l s).session = s.session := rfl
@[simp] theorem goto_buf (r : Run) (l : Line) (s : State) :
    (goto r l s).buf = s.buf := rfl
@[simp] theorem goto_radio (r : Run) (l : Line) (s : State) :
    (goto r l s).radio = s.radio := rfl
@[simp] theorem goto_tasks (r : Run) (l : Line) (s : State) :
    (goto r l s).tasks = s.tasks := rfl
@[simp] theorem goto_rstate (r : Run) (l : Line) (s : State) :
    (goto r l s).rstate = s.rstate := rfl
@[simp] theorem goto_pending (r : Run) (l : Line) (s : State) :
    (goto r l s).pending = s.pending := rfl
@[simp] theorem goto_txLen (r : Run) (l : Line) (s : State) :
    (goto r l s).txLen = s.txLen := rfl
@[simp] theorem goto_txImage (r : Run) (l : Line) (s : State) :
    (goto r l s).txImage = s.txImage := rfl
@[simp] theorem goto_txDirty (r : Run) (l : Line) (s : State) :
    (goto r l s).txDirty = s.txDirty := rfl
@[simp] theorem goto_airConf (r : Run) (l : Line) (s : State) :
    (goto r l s).airConf = s.airConf := rfl
@[simp] theorem goto_ficrHi (r : Run) (l : Line) (s : State) :
    (goto r l s).ficrHi = s.ficrHi := rfl
@[simp] theorem goto_ficrLo (r : Run) (l : Line) (s : State) :
    (goto r l s).ficrLo = s.ficrLo := rfl
@[simp] theorem goto_airIn (r : Run) (l : Line) (s : State) :
    (goto r l s).airIn = s.airIn := rfl
@[simp] theorem goto_airOut (r : Run) (l : Line) (s : State) :
    (goto r l s).airOut = s.airOut := rfl
@[simp] theorem goto_sink (r : Run) (l : Line) (s : State) :
    (goto r l s).sink = s.sink := rfl
@[simp] theorem goto_hostQ (r : Run) (l : Line) (s : State) :
    (goto r l s).hostQ = s.hostQ := rfl
@[simp] theorem goto_turns (r : Run) (l : Line) (s : State) :
    (goto r l s).turns = s.turns := rfl
@[simp] theorem goto_draws (r : Run) (l : Line) (s : State) :
    (goto r l s).draws = s.draws := rfl

/-! ## gotoWith r l f s -/

@[simp] theorem gotoWith_host (r : Run) (l : Line) (f : Frame) (s : State) :
    (gotoWith r l f s).host = s.host := rfl
@[simp] theorem gotoWith_res (r : Run) (l : Line) (f : Frame) (s : State) :
    (gotoWith r l f s).res = s.res := rfl
@[simp] theorem gotoWith_seqr (r : Run) (l : Line) (f : Frame) (s : State) :
    (gotoWith r l f s).seqr = .running { r with line := l, frame := f } := rfl
@[simp] theorem gotoWith_halted (r : Run) (l : Line) (f : Frame) (s : State) :
    (gotoWith r l f s).halted = s.halted := rfl
@[simp] theorem gotoWith_constructed (r : Run) (l : Line) (f : Frame) (s : State) :
    (gotoWith r l f s).constructed = s.constructed := rfl
@[simp] theorem gotoWith_ownExtended (r : Run) (l : Line) (f : Frame) (s : State) :
    (gotoWith r l f s).ownExtended = s.ownExtended := rfl
@[simp] theorem gotoWith_session (r : Run) (l : Line) (f : Frame) (s : State) :
    (gotoWith r l f s).session = s.session := rfl
@[simp] theorem gotoWith_buf (r : Run) (l : Line) (f : Frame) (s : State) :
    (gotoWith r l f s).buf = s.buf := rfl
@[simp] theorem gotoWith_radio (r : Run) (l : Line) (f : Frame) (s : State) :
    (gotoWith r l f s).radio = s.radio := rfl
@[simp] theorem gotoWith_tasks (r : Run) (l : Line) (f : Frame) (s : State) :
    (gotoWith r l f s).tasks = s.tasks := rfl
@[simp] theorem gotoWith_rstate (r : Run) (l : Line) (f : Frame) (s : State) :
    (gotoWith r l f s).rstate = s.rstate := rfl
@[simp] theorem gotoWith_pending (r : Run) (l : Line) (f : Frame) (s : State) :
    (gotoWith r l f s).pending = s.pending := rfl
@[simp] theorem gotoWith_txLen (r : Run) (l : Line) (f : Frame) (s : State) :
    (gotoWith r l f s).txLen = s.txLen := rfl
@[simp] theorem gotoWith_txImage (r : Run) (l : Line) (f : Frame) (s : State) :
    (gotoWith r l f s).txImage = s.txImage := rfl
@[simp] theorem gotoWith_txDirty (r : Run) (l : Line) (f : Frame) (s : State) :
    (gotoWith r l f s).txDirty = s.txDirty := rfl
@[simp] theorem gotoWith_airConf (r : Run) (l : Line) (f : Frame) (s : State) :
    (gotoWith r l f s).airConf = s.airConf := rfl
@[simp] theorem gotoWith_ficrHi (r : Run) (l : Line) (f : Frame) (s : State) :
    (gotoWith r l f s).ficrHi = s.ficrHi := rfl
@[simp] theorem gotoWith_ficrLo (r : Run) (l : Line) (f : Frame) (s : State) :
    (gotoWith r l f s).ficrLo = s.ficrLo := rfl
@[simp] theorem gotoWith_airIn (r : Run) (l : Line) (f : Frame) (s : State) :
    (gotoWith r l f s).airIn = s.airIn := rfl
@[simp] theorem gotoWith_airOut (r : Run) (l : Line) (f : Frame) (s : State) :
    (gotoWith r l f s).airOut = s.airOut := rfl
@[simp] theorem gotoWith_sink (r : Run) (l : Line) (f : Frame) (s : State) :
    (gotoWith r l f s).sink = s.sink := rfl
@[simp] theorem gotoWith_hostQ (r : Run) (l : Line) (f : Frame) (s : State) :
    (gotoWith r l f s).hostQ = s.hostQ := rfl
@[simp] theorem gotoWith_turns (r : Run) (l : Line) (f : Frame) (s : State) :
    (gotoWith r l f s).turns = s.turns := rfl
@[simp] theorem gotoWith_draws (r : Run) (l : Line) (f : Frame) (s : State) :
    (gotoWith r l f s).draws = s.draws := rfl

/-! ## post v s -/

@[simp] theorem post_host (v : Option Value) (s : State) :
    (post v s).host = s.host := rfl
@[simp] theorem post_res (v : Option Value) (s : State) :
    (post v s).res = some { status := .ok, halt := none, value := v, session := s.session } := rfl
@[simp] theorem post_seqr (v : Option Value) (s : State) :
    (post v s).seqr = .idle := rfl
@[simp] theorem post_halted (v : Option Value) (s : State) :
    (post v s).halted = s.halted := rfl
@[simp] theorem post_constructed (v : Option Value) (s : State) :
    (post v s).constructed = s.constructed := rfl
@[simp] theorem post_ownExtended (v : Option Value) (s : State) :
    (post v s).ownExtended = s.ownExtended := rfl
@[simp] theorem post_session (v : Option Value) (s : State) :
    (post v s).session = s.session := rfl
@[simp] theorem post_buf (v : Option Value) (s : State) :
    (post v s).buf = s.buf := rfl
@[simp] theorem post_radio (v : Option Value) (s : State) :
    (post v s).radio = s.radio := rfl
@[simp] theorem post_tasks (v : Option Value) (s : State) :
    (post v s).tasks = s.tasks := rfl
@[simp] theorem post_rstate (v : Option Value) (s : State) :
    (post v s).rstate = s.rstate := rfl
@[simp] theorem post_pending (v : Option Value) (s : State) :
    (post v s).pending = s.pending := rfl
@[simp] theorem post_txLen (v : Option Value) (s : State) :
    (post v s).txLen = s.txLen := rfl
@[simp] theorem post_txImage (v : Option Value) (s : State) :
    (post v s).txImage = s.txImage := rfl
@[simp] theorem post_txDirty (v : Option Value) (s : State) :
    (post v s).txDirty = s.txDirty := rfl
@[simp] theorem post_airConf (v : Option Value) (s : State) :
    (post v s).airConf = s.airConf := rfl
@[simp] theorem post_ficrHi (v : Option Value) (s : State) :
    (post v s).ficrHi = s.ficrHi := rfl
@[simp] theorem post_ficrLo (v : Option Value) (s : State) :
    (post v s).ficrLo = s.ficrLo := rfl
@[simp] theorem post_airIn (v : Option Value) (s : State) :
    (post v s).airIn = s.airIn := rfl
@[simp] theorem post_airOut (v : Option Value) (s : State) :
    (post v s).airOut = s.airOut := rfl
@[simp] theorem post_sink (v : Option Value) (s : State) :
    (post v s).sink = s.sink := rfl
@[simp] theorem post_hostQ (v : Option Value) (s : State) :
    (post v s).hostQ = s.hostQ := rfl
@[simp] theorem post_turns (v : Option Value) (s : State) :
    (post v s).turns = s.turns := rfl
@[simp] theorem post_draws (v : Option Value) (s : State) :
    (post v s).draws = s.draws := rfl

/-! ## raiseError e v s -/

@[simp] theorem raiseError_host (e : Status) (v : Option Value) (s : State) :
    (raiseError e v s).host = s.host := rfl
@[simp] theorem raiseError_res (e : Status) (v : Option Value) (s : State) :
    (raiseError e v s).res = some { status := e, halt := none, value := v, session := s.session } := rfl
@[simp] theorem raiseError_seqr (e : Status) (v : Option Value) (s : State) :
    (raiseError e v s).seqr = .idle := rfl
@[simp] theorem raiseError_halted (e : Status) (v : Option Value) (s : State) :
    (raiseError e v s).halted = s.halted := rfl
@[simp] theorem raiseError_constructed (e : Status) (v : Option Value) (s : State) :
    (raiseError e v s).constructed = s.constructed := rfl
@[simp] theorem raiseError_ownExtended (e : Status) (v : Option Value) (s : State) :
    (raiseError e v s).ownExtended = s.ownExtended := rfl
@[simp] theorem raiseError_session (e : Status) (v : Option Value) (s : State) :
    (raiseError e v s).session = s.session := rfl
@[simp] theorem raiseError_buf (e : Status) (v : Option Value) (s : State) :
    (raiseError e v s).buf = s.buf := rfl
@[simp] theorem raiseError_radio (e : Status) (v : Option Value) (s : State) :
    (raiseError e v s).radio = s.radio := rfl
@[simp] theorem raiseError_tasks (e : Status) (v : Option Value) (s : State) :
    (raiseError e v s).tasks = s.tasks := rfl
@[simp] theorem raiseError_rstate (e : Status) (v : Option Value) (s : State) :
    (raiseError e v s).rstate = s.rstate := rfl
@[simp] theorem raiseError_pending (e : Status) (v : Option Value) (s : State) :
    (raiseError e v s).pending = s.pending := rfl
@[simp] theorem raiseError_txLen (e : Status) (v : Option Value) (s : State) :
    (raiseError e v s).txLen = s.txLen := rfl
@[simp] theorem raiseError_txImage (e : Status) (v : Option Value) (s : State) :
    (raiseError e v s).txImage = s.txImage := rfl
@[simp] theorem raiseError_txDirty (e : Status) (v : Option Value) (s : State) :
    (raiseError e v s).txDirty = s.txDirty := rfl
@[simp] theorem raiseError_airConf (e : Status) (v : Option Value) (s : State) :
    (raiseError e v s).airConf = s.airConf := rfl
@[simp] theorem raiseError_ficrHi (e : Status) (v : Option Value) (s : State) :
    (raiseError e v s).ficrHi = s.ficrHi := rfl
@[simp] theorem raiseError_ficrLo (e : Status) (v : Option Value) (s : State) :
    (raiseError e v s).ficrLo = s.ficrLo := rfl
@[simp] theorem raiseError_airIn (e : Status) (v : Option Value) (s : State) :
    (raiseError e v s).airIn = s.airIn := rfl
@[simp] theorem raiseError_airOut (e : Status) (v : Option Value) (s : State) :
    (raiseError e v s).airOut = s.airOut := rfl
@[simp] theorem raiseError_sink (e : Status) (v : Option Value) (s : State) :
    (raiseError e v s).sink = s.sink := rfl
@[simp] theorem raiseError_hostQ (e : Status) (v : Option Value) (s : State) :
    (raiseError e v s).hostQ = s.hostQ := rfl
@[simp] theorem raiseError_turns (e : Status) (v : Option Value) (s : State) :
    (raiseError e v s).turns = s.turns := rfl
@[simp] theorem raiseError_draws (e : Status) (v : Option Value) (s : State) :
    (raiseError e v s).draws = s.draws := rfl

/-! ## halt r s -/

@[simp] theorem halt_host (r : HaltReason) (s : State) :
    (halt r s).host = s.host := rfl
@[simp] theorem halt_res (r : HaltReason) (s : State) :
    (halt r s).res = some { status := .halted, halt := some r, value := none, session := s.session } := rfl
@[simp] theorem halt_seqr (r : HaltReason) (s : State) :
    (halt r s).seqr = s.seqr := rfl
@[simp] theorem halt_halted (r : HaltReason) (s : State) :
    (halt r s).halted = some r := rfl
@[simp] theorem halt_constructed (r : HaltReason) (s : State) :
    (halt r s).constructed = s.constructed := rfl
@[simp] theorem halt_ownExtended (r : HaltReason) (s : State) :
    (halt r s).ownExtended = s.ownExtended := rfl
@[simp] theorem halt_session (r : HaltReason) (s : State) :
    (halt r s).session = s.session := rfl
@[simp] theorem halt_buf (r : HaltReason) (s : State) :
    (halt r s).buf = s.buf := rfl
@[simp] theorem halt_radio (r : HaltReason) (s : State) :
    (halt r s).radio = s.radio := rfl
@[simp] theorem halt_tasks (r : HaltReason) (s : State) :
    (halt r s).tasks = s.tasks := rfl
@[simp] theorem halt_rstate (r : HaltReason) (s : State) :
    (halt r s).rstate = s.rstate := rfl
@[simp] theorem halt_pending (r : HaltReason) (s : State) :
    (halt r s).pending = s.pending := rfl
@[simp] theorem halt_txLen (r : HaltReason) (s : State) :
    (halt r s).txLen = s.txLen := rfl
@[simp] theorem halt_txImage (r : HaltReason) (s : State) :
    (halt r s).txImage = s.txImage := rfl
@[simp] theorem halt_txDirty (r : HaltReason) (s : State) :
    (halt r s).txDirty = s.txDirty := rfl
@[simp] theorem halt_airConf (r : HaltReason) (s : State) :
    (halt r s).airConf = s.airConf := rfl
@[simp] theorem halt_ficrHi (r : HaltReason) (s : State) :
    (halt r s).ficrHi = s.ficrHi := rfl
@[simp] theorem halt_ficrLo (r : HaltReason) (s : State) :
    (halt r s).ficrLo = s.ficrLo := rfl
@[simp] theorem halt_airIn (r : HaltReason) (s : State) :
    (halt r s).airIn = s.airIn := rfl
@[simp] theorem halt_airOut (r : HaltReason) (s : State) :
    (halt r s).airOut = s.airOut := rfl
@[simp] theorem halt_sink (r : HaltReason) (s : State) :
    (halt r s).sink = s.sink := rfl
@[simp] theorem halt_hostQ (r : HaltReason) (s : State) :
    (halt r s).hostQ = s.hostQ := rfl
@[simp] theorem halt_turns (r : HaltReason) (s : State) :
    (halt r s).turns = s.turns := rfl
@[simp] theorem halt_draws (r : HaltReason) (s : State) :
    (halt r s).draws = s.draws := rfl

/-! ## startCommand s -/

@[simp] theorem startCommand_host (s : State) :
    (startCommand s).host = s.host := rfl
@[simp] theorem startCommand_res (s : State) :
    (startCommand s).res = some { status := .busy, halt := none, value := none, session := s.session } := rfl
@[simp] theorem startCommand_seqr (s : State) :
    (startCommand s).seqr = .running { op := s.host.cmd.extractLsb' 0 8, line := .entry, frame := Frame.start s.host } := rfl
@[simp] theorem startCommand_halted (s : State) :
    (startCommand s).halted = s.halted := rfl
@[simp] theorem startCommand_constructed (s : State) :
    (startCommand s).constructed = s.constructed := rfl
@[simp] theorem startCommand_ownExtended (s : State) :
    (startCommand s).ownExtended = s.ownExtended := rfl
@[simp] theorem startCommand_session (s : State) :
    (startCommand s).session = s.session := rfl
@[simp] theorem startCommand_buf (s : State) :
    (startCommand s).buf = s.buf := rfl
@[simp] theorem startCommand_radio (s : State) :
    (startCommand s).radio = s.radio := rfl
@[simp] theorem startCommand_tasks (s : State) :
    (startCommand s).tasks = s.tasks := rfl
@[simp] theorem startCommand_rstate (s : State) :
    (startCommand s).rstate = s.rstate := rfl
@[simp] theorem startCommand_pending (s : State) :
    (startCommand s).pending = s.pending := rfl
@[simp] theorem startCommand_txLen (s : State) :
    (startCommand s).txLen = s.txLen := rfl
@[simp] theorem startCommand_txImage (s : State) :
    (startCommand s).txImage = s.txImage := rfl
@[simp] theorem startCommand_txDirty (s : State) :
    (startCommand s).txDirty = s.txDirty := rfl
@[simp] theorem startCommand_airConf (s : State) :
    (startCommand s).airConf = s.airConf := rfl
@[simp] theorem startCommand_ficrHi (s : State) :
    (startCommand s).ficrHi = s.ficrHi := rfl
@[simp] theorem startCommand_ficrLo (s : State) :
    (startCommand s).ficrLo = s.ficrLo := rfl
@[simp] theorem startCommand_airIn (s : State) :
    (startCommand s).airIn = s.airIn := rfl
@[simp] theorem startCommand_airOut (s : State) :
    (startCommand s).airOut = s.airOut := rfl
@[simp] theorem startCommand_sink (s : State) :
    (startCommand s).sink = s.sink := rfl
@[simp] theorem startCommand_hostQ (s : State) :
    (startCommand s).hostQ = s.hostQ := rfl
@[simp] theorem startCommand_turns (s : State) :
    (startCommand s).turns = s.turns := rfl
@[simp] theorem startCommand_draws (s : State) :
    (startCommand s).draws = s.draws := rfl

/-! ## log m s -/

@[simp] theorem log_host (m : LogMsg) (s : State) :
    (log m s).host = s.host := rfl
@[simp] theorem log_res (m : LogMsg) (s : State) :
    (log m s).res = s.res := rfl
@[simp] theorem log_seqr (m : LogMsg) (s : State) :
    (log m s).seqr = s.seqr := rfl
@[simp] theorem log_halted (m : LogMsg) (s : State) :
    (log m s).halted = s.halted := rfl
@[simp] theorem log_constructed (m : LogMsg) (s : State) :
    (log m s).constructed = s.constructed := rfl
@[simp] theorem log_ownExtended (m : LogMsg) (s : State) :
    (log m s).ownExtended = s.ownExtended := rfl
@[simp] theorem log_session (m : LogMsg) (s : State) :
    (log m s).session = s.session := rfl
@[simp] theorem log_buf (m : LogMsg) (s : State) :
    (log m s).buf = s.buf := rfl
@[simp] theorem log_radio (m : LogMsg) (s : State) :
    (log m s).radio = s.radio := rfl
@[simp] theorem log_tasks (m : LogMsg) (s : State) :
    (log m s).tasks = s.tasks := rfl
@[simp] theorem log_rstate (m : LogMsg) (s : State) :
    (log m s).rstate = s.rstate := rfl
@[simp] theorem log_pending (m : LogMsg) (s : State) :
    (log m s).pending = s.pending := rfl
@[simp] theorem log_txLen (m : LogMsg) (s : State) :
    (log m s).txLen = s.txLen := rfl
@[simp] theorem log_txImage (m : LogMsg) (s : State) :
    (log m s).txImage = s.txImage := rfl
@[simp] theorem log_txDirty (m : LogMsg) (s : State) :
    (log m s).txDirty = s.txDirty := rfl
@[simp] theorem log_airConf (m : LogMsg) (s : State) :
    (log m s).airConf = s.airConf := rfl
@[simp] theorem log_ficrHi (m : LogMsg) (s : State) :
    (log m s).ficrHi = s.ficrHi := rfl
@[simp] theorem log_ficrLo (m : LogMsg) (s : State) :
    (log m s).ficrLo = s.ficrLo := rfl
@[simp] theorem log_airIn (m : LogMsg) (s : State) :
    (log m s).airIn = s.airIn := rfl
@[simp] theorem log_airOut (m : LogMsg) (s : State) :
    (log m s).airOut = s.airOut := rfl
@[simp] theorem log_sink (m : LogMsg) (s : State) :
    (log m s).sink = s.sink ++ [m] := rfl
@[simp] theorem log_hostQ (m : LogMsg) (s : State) :
    (log m s).hostQ = s.hostQ := rfl
@[simp] theorem log_turns (m : LogMsg) (s : State) :
    (log m s).turns = s.turns := rfl
@[simp] theorem log_draws (m : LogMsg) (s : State) :
    (log m s).draws = s.draws := rfl

/-! ## bufStore a bs s -/

@[simp] theorem bufStore_host (a : Nat) (bs : Bytes) (s : State) :
    (bufStore a bs s).host = s.host := rfl
@[simp] theorem bufStore_res (a : Nat) (bs : Bytes) (s : State) :
    (bufStore a bs s).res = s.res := rfl
@[simp] theorem bufStore_seqr (a : Nat) (bs : Bytes) (s : State) :
    (bufStore a bs s).seqr = s.seqr := rfl
@[simp] theorem bufStore_halted (a : Nat) (bs : Bytes) (s : State) :
    (bufStore a bs s).halted = s.halted := rfl
@[simp] theorem bufStore_constructed (a : Nat) (bs : Bytes) (s : State) :
    (bufStore a bs s).constructed = s.constructed := rfl
@[simp] theorem bufStore_ownExtended (a : Nat) (bs : Bytes) (s : State) :
    (bufStore a bs s).ownExtended = s.ownExtended := rfl
@[simp] theorem bufStore_session (a : Nat) (bs : Bytes) (s : State) :
    (bufStore a bs s).session = s.session := rfl
@[simp] theorem bufStore_buf (a : Nat) (bs : Bytes) (s : State) :
    (bufStore a bs s).buf = Memory.writeBytes s.buf a bs := rfl
@[simp] theorem bufStore_radio (a : Nat) (bs : Bytes) (s : State) :
    (bufStore a bs s).radio = s.radio := rfl
@[simp] theorem bufStore_tasks (a : Nat) (bs : Bytes) (s : State) :
    (bufStore a bs s).tasks = s.tasks := rfl
@[simp] theorem bufStore_rstate (a : Nat) (bs : Bytes) (s : State) :
    (bufStore a bs s).rstate = s.rstate := rfl
@[simp] theorem bufStore_pending (a : Nat) (bs : Bytes) (s : State) :
    (bufStore a bs s).pending = s.pending := rfl
@[simp] theorem bufStore_txLen (a : Nat) (bs : Bytes) (s : State) :
    (bufStore a bs s).txLen = s.txLen := rfl
@[simp] theorem bufStore_txImage (a : Nat) (bs : Bytes) (s : State) :
    (bufStore a bs s).txImage = s.txImage := rfl
@[simp] theorem bufStore_txDirty (a : Nat) (bs : Bytes) (s : State) :
    (bufStore a bs s).txDirty = (if s.rstate = .tx then touched a bs ++ s.txDirty else s.txDirty) := rfl
@[simp] theorem bufStore_airConf (a : Nat) (bs : Bytes) (s : State) :
    (bufStore a bs s).airConf = s.airConf := rfl
@[simp] theorem bufStore_ficrHi (a : Nat) (bs : Bytes) (s : State) :
    (bufStore a bs s).ficrHi = s.ficrHi := rfl
@[simp] theorem bufStore_ficrLo (a : Nat) (bs : Bytes) (s : State) :
    (bufStore a bs s).ficrLo = s.ficrLo := rfl
@[simp] theorem bufStore_airIn (a : Nat) (bs : Bytes) (s : State) :
    (bufStore a bs s).airIn = s.airIn := rfl
@[simp] theorem bufStore_airOut (a : Nat) (bs : Bytes) (s : State) :
    (bufStore a bs s).airOut = s.airOut := rfl
@[simp] theorem bufStore_sink (a : Nat) (bs : Bytes) (s : State) :
    (bufStore a bs s).sink = s.sink := rfl
@[simp] theorem bufStore_hostQ (a : Nat) (bs : Bytes) (s : State) :
    (bufStore a bs s).hostQ = s.hostQ := rfl
@[simp] theorem bufStore_turns (a : Nat) (bs : Bytes) (s : State) :
    (bufStore a bs s).turns = s.turns := rfl
@[simp] theorem bufStore_draws (a : Nat) (bs : Bytes) (s : State) :
    (bufStore a bs s).draws = s.draws := rfl

/-! ## raiseTxen s -/

@[simp] theorem raiseTxen_host (s : State) :
    (raiseTxen s).host = s.host := rfl
@[simp] theorem raiseTxen_res (s : State) :
    (raiseTxen s).res = s.res := rfl
@[simp] theorem raiseTxen_seqr (s : State) :
    (raiseTxen s).seqr = s.seqr := rfl
@[simp] theorem raiseTxen_halted (s : State) :
    (raiseTxen s).halted = s.halted := rfl
@[simp] theorem raiseTxen_constructed (s : State) :
    (raiseTxen s).constructed = s.constructed := rfl
@[simp] theorem raiseTxen_ownExtended (s : State) :
    (raiseTxen s).ownExtended = s.ownExtended := rfl
@[simp] theorem raiseTxen_session (s : State) :
    (raiseTxen s).session = s.session := rfl
@[simp] theorem raiseTxen_buf (s : State) :
    (raiseTxen s).buf = s.buf := rfl
@[simp] theorem raiseTxen_radio (s : State) :
    (raiseTxen s).radio = s.radio := rfl
@[simp] theorem raiseTxen_tasks (s : State) :
    (raiseTxen s).tasks = s.tasks := rfl
@[simp] theorem raiseTxen_rstate (s : State) :
    (raiseTxen s).rstate = s.rstate := rfl
@[simp] theorem raiseTxen_pending (s : State) :
    (raiseTxen s).pending = { s.pending with txen := true } := rfl
@[simp] theorem raiseTxen_txLen (s : State) :
    (raiseTxen s).txLen = s.txLen := rfl
@[simp] theorem raiseTxen_txImage (s : State) :
    (raiseTxen s).txImage = s.txImage := rfl
@[simp] theorem raiseTxen_txDirty (s : State) :
    (raiseTxen s).txDirty = s.txDirty := rfl
@[simp] theorem raiseTxen_airConf (s : State) :
    (raiseTxen s).airConf = s.airConf := rfl
@[simp] theorem raiseTxen_ficrHi (s : State) :
    (raiseTxen s).ficrHi = s.ficrHi := rfl
@[simp] theorem raiseTxen_ficrLo (s : State) :
    (raiseTxen s).ficrLo = s.ficrLo := rfl
@[simp] theorem raiseTxen_airIn (s : State) :
    (raiseTxen s).airIn = s.airIn := rfl
@[simp] theorem raiseTxen_airOut (s : State) :
    (raiseTxen s).airOut = s.airOut := rfl
@[simp] theorem raiseTxen_sink (s : State) :
    (raiseTxen s).sink = s.sink := rfl
@[simp] theorem raiseTxen_hostQ (s : State) :
    (raiseTxen s).hostQ = s.hostQ := rfl
@[simp] theorem raiseTxen_turns (s : State) :
    (raiseTxen s).turns = s.turns := rfl
@[simp] theorem raiseTxen_draws (s : State) :
    (raiseTxen s).draws = s.draws := rfl

/-! ## raiseRxen s -/

@[simp] theorem raiseRxen_host (s : State) :
    (raiseRxen s).host = s.host := rfl
@[simp] theorem raiseRxen_res (s : State) :
    (raiseRxen s).res = s.res := rfl
@[simp] theorem raiseRxen_seqr (s : State) :
    (raiseRxen s).seqr = s.seqr := rfl
@[simp] theorem raiseRxen_halted (s : State) :
    (raiseRxen s).halted = s.halted := rfl
@[simp] theorem raiseRxen_constructed (s : State) :
    (raiseRxen s).constructed = s.constructed := rfl
@[simp] theorem raiseRxen_ownExtended (s : State) :
    (raiseRxen s).ownExtended = s.ownExtended := rfl
@[simp] theorem raiseRxen_session (s : State) :
    (raiseRxen s).session = s.session := rfl
@[simp] theorem raiseRxen_buf (s : State) :
    (raiseRxen s).buf = s.buf := rfl
@[simp] theorem raiseRxen_radio (s : State) :
    (raiseRxen s).radio = s.radio := rfl
@[simp] theorem raiseRxen_tasks (s : State) :
    (raiseRxen s).tasks = s.tasks := rfl
@[simp] theorem raiseRxen_rstate (s : State) :
    (raiseRxen s).rstate = s.rstate := rfl
@[simp] theorem raiseRxen_pending (s : State) :
    (raiseRxen s).pending = { s.pending with rxen := true } := rfl
@[simp] theorem raiseRxen_txLen (s : State) :
    (raiseRxen s).txLen = s.txLen := rfl
@[simp] theorem raiseRxen_txImage (s : State) :
    (raiseRxen s).txImage = s.txImage := rfl
@[simp] theorem raiseRxen_txDirty (s : State) :
    (raiseRxen s).txDirty = s.txDirty := rfl
@[simp] theorem raiseRxen_airConf (s : State) :
    (raiseRxen s).airConf = s.airConf := rfl
@[simp] theorem raiseRxen_ficrHi (s : State) :
    (raiseRxen s).ficrHi = s.ficrHi := rfl
@[simp] theorem raiseRxen_ficrLo (s : State) :
    (raiseRxen s).ficrLo = s.ficrLo := rfl
@[simp] theorem raiseRxen_airIn (s : State) :
    (raiseRxen s).airIn = s.airIn := rfl
@[simp] theorem raiseRxen_airOut (s : State) :
    (raiseRxen s).airOut = s.airOut := rfl
@[simp] theorem raiseRxen_sink (s : State) :
    (raiseRxen s).sink = s.sink := rfl
@[simp] theorem raiseRxen_hostQ (s : State) :
    (raiseRxen s).hostQ = s.hostQ := rfl
@[simp] theorem raiseRxen_turns (s : State) :
    (raiseRxen s).turns = s.turns := rfl
@[simp] theorem raiseRxen_draws (s : State) :
    (raiseRxen s).draws = s.draws := rfl

/-! ## regWrite .shorts v s -/

@[simp] theorem regWrite_shorts_host (v : Word) (s : State) :
    (regWrite .shorts v s).host = s.host := rfl
@[simp] theorem regWrite_shorts_res (v : Word) (s : State) :
    (regWrite .shorts v s).res = s.res := rfl
@[simp] theorem regWrite_shorts_seqr (v : Word) (s : State) :
    (regWrite .shorts v s).seqr = s.seqr := rfl
@[simp] theorem regWrite_shorts_halted (v : Word) (s : State) :
    (regWrite .shorts v s).halted = s.halted := rfl
@[simp] theorem regWrite_shorts_constructed (v : Word) (s : State) :
    (regWrite .shorts v s).constructed = s.constructed := rfl
@[simp] theorem regWrite_shorts_ownExtended (v : Word) (s : State) :
    (regWrite .shorts v s).ownExtended = s.ownExtended := rfl
@[simp] theorem regWrite_shorts_session (v : Word) (s : State) :
    (regWrite .shorts v s).session = s.session := rfl
@[simp] theorem regWrite_shorts_buf (v : Word) (s : State) :
    (regWrite .shorts v s).buf = s.buf := rfl
@[simp] theorem regWrite_shorts_radio (v : Word) (s : State) :
    (regWrite .shorts v s).radio = { s.radio with shorts := v } := rfl
@[simp] theorem regWrite_shorts_tasks (v : Word) (s : State) :
    (regWrite .shorts v s).tasks = s.tasks := rfl
@[simp] theorem regWrite_shorts_rstate (v : Word) (s : State) :
    (regWrite .shorts v s).rstate = s.rstate := rfl
@[simp] theorem regWrite_shorts_pending (v : Word) (s : State) :
    (regWrite .shorts v s).pending = s.pending := rfl
@[simp] theorem regWrite_shorts_txLen (v : Word) (s : State) :
    (regWrite .shorts v s).txLen = s.txLen := rfl
@[simp] theorem regWrite_shorts_txImage (v : Word) (s : State) :
    (regWrite .shorts v s).txImage = s.txImage := rfl
@[simp] theorem regWrite_shorts_txDirty (v : Word) (s : State) :
    (regWrite .shorts v s).txDirty = s.txDirty := rfl
@[simp] theorem regWrite_shorts_airConf (v : Word) (s : State) :
    (regWrite .shorts v s).airConf = s.airConf := rfl
@[simp] theorem regWrite_shorts_ficrHi (v : Word) (s : State) :
    (regWrite .shorts v s).ficrHi = s.ficrHi := rfl
@[simp] theorem regWrite_shorts_ficrLo (v : Word) (s : State) :
    (regWrite .shorts v s).ficrLo = s.ficrLo := rfl
@[simp] theorem regWrite_shorts_airIn (v : Word) (s : State) :
    (regWrite .shorts v s).airIn = s.airIn := rfl
@[simp] theorem regWrite_shorts_airOut (v : Word) (s : State) :
    (regWrite .shorts v s).airOut = s.airOut := rfl
@[simp] theorem regWrite_shorts_sink (v : Word) (s : State) :
    (regWrite .shorts v s).sink = s.sink := rfl
@[simp] theorem regWrite_shorts_hostQ (v : Word) (s : State) :
    (regWrite .shorts v s).hostQ = s.hostQ := rfl
@[simp] theorem regWrite_shorts_turns (v : Word) (s : State) :
    (regWrite .shorts v s).turns = s.turns := rfl
@[simp] theorem regWrite_shorts_draws (v : Word) (s : State) :
    (regWrite .shorts v s).draws = s.draws := rfl

/-! ## regWrite .tasksTxen 1 s -/

@[simp] theorem regWrite_tasksTxen_host (s : State) :
    (regWrite .tasksTxen 1 s).host = s.host := rfl
@[simp] theorem regWrite_tasksTxen_res (s : State) :
    (regWrite .tasksTxen 1 s).res = s.res := rfl
@[simp] theorem regWrite_tasksTxen_seqr (s : State) :
    (regWrite .tasksTxen 1 s).seqr = s.seqr := rfl
@[simp] theorem regWrite_tasksTxen_halted (s : State) :
    (regWrite .tasksTxen 1 s).halted = s.halted := rfl
@[simp] theorem regWrite_tasksTxen_constructed (s : State) :
    (regWrite .tasksTxen 1 s).constructed = s.constructed := rfl
@[simp] theorem regWrite_tasksTxen_ownExtended (s : State) :
    (regWrite .tasksTxen 1 s).ownExtended = s.ownExtended := rfl
@[simp] theorem regWrite_tasksTxen_session (s : State) :
    (regWrite .tasksTxen 1 s).session = s.session := rfl
@[simp] theorem regWrite_tasksTxen_buf (s : State) :
    (regWrite .tasksTxen 1 s).buf = s.buf := rfl
@[simp] theorem regWrite_tasksTxen_radio (s : State) :
    (regWrite .tasksTxen 1 s).radio = s.radio := rfl
@[simp] theorem regWrite_tasksTxen_tasks (s : State) :
    (regWrite .tasksTxen 1 s).tasks =
      { s.tasks with txen := Config.taskRead s.tasks.writes, writes := s.tasks.writes + 1 } := rfl
@[simp] theorem regWrite_tasksTxen_rstate (s : State) :
    (regWrite .tasksTxen 1 s).rstate = s.rstate := rfl
@[simp] theorem regWrite_tasksTxen_pending (s : State) :
    (regWrite .tasksTxen 1 s).pending = { s.pending with txen := true } := rfl
@[simp] theorem regWrite_tasksTxen_txLen (s : State) :
    (regWrite .tasksTxen 1 s).txLen = s.txLen := rfl
@[simp] theorem regWrite_tasksTxen_txImage (s : State) :
    (regWrite .tasksTxen 1 s).txImage = s.txImage := rfl
@[simp] theorem regWrite_tasksTxen_txDirty (s : State) :
    (regWrite .tasksTxen 1 s).txDirty = s.txDirty := rfl
@[simp] theorem regWrite_tasksTxen_airConf (s : State) :
    (regWrite .tasksTxen 1 s).airConf = s.airConf := rfl
@[simp] theorem regWrite_tasksTxen_ficrHi (s : State) :
    (regWrite .tasksTxen 1 s).ficrHi = s.ficrHi := rfl
@[simp] theorem regWrite_tasksTxen_ficrLo (s : State) :
    (regWrite .tasksTxen 1 s).ficrLo = s.ficrLo := rfl
@[simp] theorem regWrite_tasksTxen_airIn (s : State) :
    (regWrite .tasksTxen 1 s).airIn = s.airIn := rfl
@[simp] theorem regWrite_tasksTxen_airOut (s : State) :
    (regWrite .tasksTxen 1 s).airOut = s.airOut := rfl
@[simp] theorem regWrite_tasksTxen_sink (s : State) :
    (regWrite .tasksTxen 1 s).sink = s.sink := rfl
@[simp] theorem regWrite_tasksTxen_hostQ (s : State) :
    (regWrite .tasksTxen 1 s).hostQ = s.hostQ := rfl
@[simp] theorem regWrite_tasksTxen_turns (s : State) :
    (regWrite .tasksTxen 1 s).turns = s.turns := rfl
@[simp] theorem regWrite_tasksTxen_draws (s : State) :
    (regWrite .tasksTxen 1 s).draws = s.draws := rfl

/-! ## regWrite .tasksRxen 1 s -/

@[simp] theorem regWrite_tasksRxen_host (s : State) :
    (regWrite .tasksRxen 1 s).host = s.host := rfl
@[simp] theorem regWrite_tasksRxen_res (s : State) :
    (regWrite .tasksRxen 1 s).res = s.res := rfl
@[simp] theorem regWrite_tasksRxen_seqr (s : State) :
    (regWrite .tasksRxen 1 s).seqr = s.seqr := rfl
@[simp] theorem regWrite_tasksRxen_halted (s : State) :
    (regWrite .tasksRxen 1 s).halted = s.halted := rfl
@[simp] theorem regWrite_tasksRxen_constructed (s : State) :
    (regWrite .tasksRxen 1 s).constructed = s.constructed := rfl
@[simp] theorem regWrite_tasksRxen_ownExtended (s : State) :
    (regWrite .tasksRxen 1 s).ownExtended = s.ownExtended := rfl
@[simp] theorem regWrite_tasksRxen_session (s : State) :
    (regWrite .tasksRxen 1 s).session = s.session := rfl
@[simp] theorem regWrite_tasksRxen_buf (s : State) :
    (regWrite .tasksRxen 1 s).buf = s.buf := rfl
@[simp] theorem regWrite_tasksRxen_radio (s : State) :
    (regWrite .tasksRxen 1 s).radio = s.radio := rfl
@[simp] theorem regWrite_tasksRxen_tasks (s : State) :
    (regWrite .tasksRxen 1 s).tasks =
      { s.tasks with rxen := Config.taskRead s.tasks.writes, writes := s.tasks.writes + 1 } := rfl
@[simp] theorem regWrite_tasksRxen_rstate (s : State) :
    (regWrite .tasksRxen 1 s).rstate = s.rstate := rfl
@[simp] theorem regWrite_tasksRxen_pending (s : State) :
    (regWrite .tasksRxen 1 s).pending = { s.pending with rxen := true } := rfl
@[simp] theorem regWrite_tasksRxen_txLen (s : State) :
    (regWrite .tasksRxen 1 s).txLen = s.txLen := rfl
@[simp] theorem regWrite_tasksRxen_txImage (s : State) :
    (regWrite .tasksRxen 1 s).txImage = s.txImage := rfl
@[simp] theorem regWrite_tasksRxen_txDirty (s : State) :
    (regWrite .tasksRxen 1 s).txDirty = s.txDirty := rfl
@[simp] theorem regWrite_tasksRxen_airConf (s : State) :
    (regWrite .tasksRxen 1 s).airConf = s.airConf := rfl
@[simp] theorem regWrite_tasksRxen_ficrHi (s : State) :
    (regWrite .tasksRxen 1 s).ficrHi = s.ficrHi := rfl
@[simp] theorem regWrite_tasksRxen_ficrLo (s : State) :
    (regWrite .tasksRxen 1 s).ficrLo = s.ficrLo := rfl
@[simp] theorem regWrite_tasksRxen_airIn (s : State) :
    (regWrite .tasksRxen 1 s).airIn = s.airIn := rfl
@[simp] theorem regWrite_tasksRxen_airOut (s : State) :
    (regWrite .tasksRxen 1 s).airOut = s.airOut := rfl
@[simp] theorem regWrite_tasksRxen_sink (s : State) :
    (regWrite .tasksRxen 1 s).sink = s.sink := rfl
@[simp] theorem regWrite_tasksRxen_hostQ (s : State) :
    (regWrite .tasksRxen 1 s).hostQ = s.hostQ := rfl
@[simp] theorem regWrite_tasksRxen_turns (s : State) :
    (regWrite .tasksRxen 1 s).turns = s.turns := rfl
@[simp] theorem regWrite_tasksRxen_draws (s : State) :
    (regWrite .tasksRxen 1 s).draws = s.draws := rfl

/-! ## regWrite .tasksStart 1 s -/

@[simp] theorem regWrite_tasksStart_host (s : State) :
    (regWrite .tasksStart 1 s).host = s.host := rfl
@[simp] theorem regWrite_tasksStart_res (s : State) :
    (regWrite .tasksStart 1 s).res = s.res := rfl
@[simp] theorem regWrite_tasksStart_seqr (s : State) :
    (regWrite .tasksStart 1 s).seqr = s.seqr := rfl
@[simp] theorem regWrite_tasksStart_halted (s : State) :
    (regWrite .tasksStart 1 s).halted = s.halted := rfl
@[simp] theorem regWrite_tasksStart_constructed (s : State) :
    (regWrite .tasksStart 1 s).constructed = s.constructed := rfl
@[simp] theorem regWrite_tasksStart_ownExtended (s : State) :
    (regWrite .tasksStart 1 s).ownExtended = s.ownExtended := rfl
@[simp] theorem regWrite_tasksStart_session (s : State) :
    (regWrite .tasksStart 1 s).session = s.session := rfl
@[simp] theorem regWrite_tasksStart_buf (s : State) :
    (regWrite .tasksStart 1 s).buf = s.buf := rfl
@[simp] theorem regWrite_tasksStart_radio (s : State) :
    (regWrite .tasksStart 1 s).radio = s.radio := rfl
@[simp] theorem regWrite_tasksStart_tasks (s : State) :
    (regWrite .tasksStart 1 s).tasks =
      { s.tasks with start := Config.taskRead s.tasks.writes, writes := s.tasks.writes + 1 } := rfl
@[simp] theorem regWrite_tasksStart_rstate (s : State) :
    (regWrite .tasksStart 1 s).rstate = s.rstate := rfl
@[simp] theorem regWrite_tasksStart_pending (s : State) :
    (regWrite .tasksStart 1 s).pending = { s.pending with start := true } := rfl
@[simp] theorem regWrite_tasksStart_txLen (s : State) :
    (regWrite .tasksStart 1 s).txLen = s.txLen := rfl
@[simp] theorem regWrite_tasksStart_txImage (s : State) :
    (regWrite .tasksStart 1 s).txImage = s.txImage := rfl
@[simp] theorem regWrite_tasksStart_txDirty (s : State) :
    (regWrite .tasksStart 1 s).txDirty = s.txDirty := rfl
@[simp] theorem regWrite_tasksStart_airConf (s : State) :
    (regWrite .tasksStart 1 s).airConf = s.airConf := rfl
@[simp] theorem regWrite_tasksStart_ficrHi (s : State) :
    (regWrite .tasksStart 1 s).ficrHi = s.ficrHi := rfl
@[simp] theorem regWrite_tasksStart_ficrLo (s : State) :
    (regWrite .tasksStart 1 s).ficrLo = s.ficrLo := rfl
@[simp] theorem regWrite_tasksStart_airIn (s : State) :
    (regWrite .tasksStart 1 s).airIn = s.airIn := rfl
@[simp] theorem regWrite_tasksStart_airOut (s : State) :
    (regWrite .tasksStart 1 s).airOut = s.airOut := rfl
@[simp] theorem regWrite_tasksStart_sink (s : State) :
    (regWrite .tasksStart 1 s).sink = s.sink := rfl
@[simp] theorem regWrite_tasksStart_hostQ (s : State) :
    (regWrite .tasksStart 1 s).hostQ = s.hostQ := rfl
@[simp] theorem regWrite_tasksStart_turns (s : State) :
    (regWrite .tasksStart 1 s).turns = s.turns := rfl
@[simp] theorem regWrite_tasksStart_draws (s : State) :
    (regWrite .tasksStart 1 s).draws = s.draws := rfl

/-! ## taskWrite v put trigger s -/

/-- A write of 0 to a task register has no effect (rule R34). -/
@[simp] theorem taskWrite_zero (put : Word → TaskRegs → TaskRegs) (trigger : State → State) (s : State) :
    taskWrite 0#32 put trigger s = s := rfl

/-- A write of 1 to a task register triggers it, a free word left in it (rule R34). -/
@[simp] theorem taskWrite_one (put : Word → TaskRegs → TaskRegs) (trigger : State → State) (s : State) :
    taskWrite 1#32 put trigger s =
      trigger { s with
        tasks := { put (Config.taskRead s.tasks.writes) s.tasks with writes := s.tasks.writes + 1 } } := rfl

end Sys2Proof.Machine
end

