-- ==== Sys2Proof/Laws/Exec.lean ====
section
/-! SUPPORT. What `command`, the buffer primitives and the step of the interleaving answer, said once. -/

namespace Sys2Proof.Machine

/-! ## A controller step of a command -/

/-- A halted block's controller takes no step (rule R24). -/
theorem command_halted {s : State} {line : Run → Out} (h : s.halted ≠ none) : command s line = .next s := by
  cases hh : s.halted <;> simp_all [command]

/-- The start step (rule R23). -/
theorem command_idle {s : State} {line : Run → Out} (h : s.halted = none) (hs : s.seqr = .idle) :
    command s line = .next (startCommand s) := by
  simp [command, h, hs]

/-- A running command's line (rule R23). -/
theorem command_running {s : State} {line : Run → Out} {r : Run} (h : s.halted = none) (hs : s.seqr = .running r) :
    command s line = line r := by
  simp [command, h, hs]

/-- Everything a command's controller step can be. -/
theorem command_cases {s t : State} {line : Run → Out} (h : command s line = .next t) :
    (s.halted ≠ none ∧ t = s) ∨ (s.halted = none ∧ s.seqr = .idle ∧ t = startCommand s) ∨
      ∃ r, s.halted = none ∧ s.seqr = .running r ∧ line r = .next t := by
  cases hh : s.halted with
  | some x => rw [command_halted (by simp [hh])] at h; cases h; exact .inl ⟨by simp, rfl⟩
  | none =>
    cases hs : s.seqr with
    | idle => rw [command_idle hh hs] at h; cases h; exact .inr (.inl ⟨rfl, rfl, rfl⟩)
    | running r => rw [command_running hh hs] at h; exact .inr (.inr ⟨r, rfl, rfl, h⟩)

/-- A command of one controller step, at its line. -/
theorem oneStep_entry {s : State} {r : Run} {result : Run → State} (h : s.halted = none)
    (hs : s.seqr = .running r) (hl : r.line = .entry) : oneStep s result = .next (result r) := by
  simp [oneStep, command_running h hs, hl]

/-! ## The primitives -/

/-- A construction test that passes (rule R258). -/
@[simp] theorem needConstructed_true {s : State} {rest : Out} (h : s.constructed = true) :
    needConstructed s rest = rest := by
  simp [needConstructed, h]

/-- A construction test that fails halts the block (rule R258). -/
@[simp] theorem needConstructed_false {s : State} {rest : Out} (h : s.constructed = false) :
    needConstructed s rest = .next (halt .notConstructed s) := by
  simp [needConstructed, h]

/-- A store inside the buffer goes on. -/
theorem memWrite_inside {a : Nat} {bs : Bytes} {s : State} {rest : State → Out} (h : a + bs.length ≤ 256) :
    memWrite a bs s rest = rest (bufStore a bs s) := by
  simp [memWrite, Config.bufCap, h]

/-- A store that goes on is inside the buffer. -/
theorem memWrite_next {a : Nat} {bs : Bytes} {s t : State} {rest : State → Out}
    (h : memWrite a bs s rest = .next t) : a + bs.length ≤ 256 ∧ rest (bufStore a bs s) = .next t := by
  unfold memWrite at h
  split at h
  · exact ⟨by assumption, h⟩
  · cases h

/-- A read inside the buffer goes on. -/
theorem memRead_inside {a n : Nat} {s : State} {rest : Bytes → Out} (h : a + n ≤ 256) :
    memRead a n s rest = rest (Memory.readBytes s.buf a n) := by
  simp [memRead, Config.bufCap, h]

/-- A read that goes on is inside the buffer. -/
theorem memRead_next {a n : Nat} {s t : State} {rest : Bytes → Out} (h : memRead a n s rest = .next t) :
    a + n ≤ 256 ∧ rest (Memory.readBytes s.buf a n) = .next t := by
  unfold memRead at h
  split at h
  · exact ⟨by assumption, h⟩
  · cases h

/-- A word read from STATE shows the state it was read in, and no other (rule R45). -/
@[simp] theorem shows_code (a b : RadioState) : shows (a.code.setWidth 32) b = decide (a = b) := by
  cases a <;> cases b <;> decide

/-- A poll's read (rules R130, R131). -/
theorem pollStep_eq (want : RadioState) (r : Run) (next : Line) (s : State) :
    pollStep want r next s = if s.rstate = want then goto r next s else goto r r.line s := by
  simp [pollStep]

/-- Moving to the line the sequencer stands at is no move. -/
theorem goto_self {s : State} {r : Run} (hs : s.seqr = .running r) : goto r r.line s = s := by
  cases s; cases hs; rfl

/-! ## What a line of a command answers

A line that answers a next state belongs to the running command, and the next state is the line's. -/

/-- A line of TransmitBlocking, in whichever command runs. -/
theorem exec_tx {i : Instr} {s t : State} {r : Run} {l : TxLine} (h : s.halted = none) (hs : s.seqr = .running r)
    (hl : r.line = .tx l) (he : exec i s = .next t) : txStep l r s = .next t := by
  cases i <;> simp only [exec, execConstruct, execConfigure, execTransmit, execReceive, execEncBeaconReq,
    execEncAssocReq, execEncDataReq, execEncAck, execMacDecode, execBroadcastBeacon, execReceiveOnce,
    execWriteExpectAck, execAssociate, execNwkParseFcf, execNwkParsePacket, execNwkParseSechdr, runConstruct, runConfigure,
    runTransmit, runReceive, runEncAssocReq, runEncDataReq, runMacDecode, runBroadcastBeacon, runReceiveOnce,
    runWriteExpectAck, runAssociate, runNwkParsePacket, runNwkParseSechdr, oneStep,
    command_running h hs, hl] at he <;> first | exact he | cases he

/-- A line of ReceiveBlocking, in whichever command runs. -/
theorem exec_rx {i : Instr} {s t : State} {r : Run} {l : RxLine} (h : s.halted = none) (hs : s.seqr = .running r)
    (hl : r.line = .rx l) (he : exec i s = .next t) : rxStep l r s = .next t := by
  cases i <;> simp only [exec, execConstruct, execConfigure, execTransmit, execReceive, execEncBeaconReq,
    execEncAssocReq, execEncDataReq, execEncAck, execMacDecode, execBroadcastBeacon, execReceiveOnce,
    execWriteExpectAck, execAssociate, execNwkParseFcf, execNwkParsePacket, execNwkParseSechdr, runConstruct, runConfigure,
    runTransmit, runReceive, runEncAssocReq, runEncDataReq, runMacDecode, runBroadcastBeacon, runReceiveOnce,
    runWriteExpectAck, runAssociate, runNwkParsePacket, runNwkParseSechdr, oneStep,
    command_running h hs, hl] at he <;> first | exact he | cases he

/-- A line of ReceiveOnceProc, in whichever command runs. -/
theorem exec_once {i : Instr} {s t : State} {r : Run} {l : OnceLine} (h : s.halted = none)
    (hs : s.seqr = .running r) (hl : r.line = .once l) (he : exec i s = .next t) : t = onceStep l r s := by
  cases i <;> simp only [exec, execConstruct, execConfigure, execTransmit, execReceive, execEncBeaconReq,
    execEncAssocReq, execEncDataReq, execEncAck, execMacDecode, execBroadcastBeacon, execReceiveOnce,
    execWriteExpectAck, execAssociate, execNwkParseFcf, execNwkParsePacket, execNwkParseSechdr, runConstruct, runConfigure,
    runTransmit, runReceive, runEncAssocReq, runEncDataReq, runMacDecode, runBroadcastBeacon, runReceiveOnce,
    runWriteExpectAck, runAssociate, runNwkParsePacket, runNwkParseSechdr, oneStep,
    command_running h hs, hl] at he <;> first | (cases he; done) | (cases he; rfl)

/-- A line of WriteAndExpectAckProc, in whichever command runs. -/
theorem exec_wait {i : Instr} {s t : State} {r : Run} {l : WaitLine} (h : s.halted = none)
    (hs : s.seqr = .running r) (hl : r.line = .wait l) (he : exec i s = .next t) : t = waitStep l r s := by
  cases i <;> simp only [exec, execConstruct, execConfigure, execTransmit, execReceive, execEncBeaconReq,
    execEncAssocReq, execEncDataReq, execEncAck, execMacDecode, execBroadcastBeacon, execReceiveOnce,
    execWriteExpectAck, execAssociate, execNwkParseFcf, execNwkParsePacket, execNwkParseSechdr, runConstruct, runConfigure,
    runTransmit, runReceive, runEncAssocReq, runEncDataReq, runMacDecode, runBroadcastBeacon, runReceiveOnce,
    runWriteExpectAck, runAssociate, runNwkParsePacket, runNwkParseSechdr, oneStep,
    command_running h hs, hl] at he <;> first | (cases he; done) | (cases he; rfl)

/-- A line of ASSOCIATE beside its first and last. -/
theorem exec_assoc {i : Instr} {s t : State} {r : Run} {l : AssocLine} (h : s.halted = none)
    (hs : s.seqr = .running r) (hl : r.line = .assoc l) (he : exec i s = .next t) :
    i = .associate ∧ t = assocStep l r s := by
  cases i <;> simp only [exec, execConstruct, execConfigure, execTransmit, execReceive, execEncBeaconReq,
    execEncAssocReq, execEncDataReq, execEncAck, execMacDecode, execBroadcastBeacon, execReceiveOnce,
    execWriteExpectAck, execAssociate, execNwkParseFcf, execNwkParsePacket, execNwkParseSechdr, runConstruct, runConfigure,
    runTransmit, runReceive, runEncAssocReq, runEncDataReq, runMacDecode, runBroadcastBeacon, runReceiveOnce,
    runWriteExpectAck, runAssociate, runNwkParsePacket, runNwkParseSechdr, oneStep,
    command_running h hs, hl] at he <;> first | (cases he; done) | (cases he; exact ⟨rfl, rfl⟩)

/-- A line of CONSTRUCT after its first. -/
theorem exec_construct {i : Instr} {s t : State} {r : Run} {l : ConstructLine} (h : s.halted = none)
    (hs : s.seqr = .running r) (hl : r.line = .construct l) (he : exec i s = .next t) :
    i = .construct ∧ t = constructStep l r s := by
  cases i <;> simp only [exec, execConstruct, execConfigure, execTransmit, execReceive, execEncBeaconReq,
    execEncAssocReq, execEncDataReq, execEncAck, execMacDecode, execBroadcastBeacon, execReceiveOnce,
    execWriteExpectAck, execAssociate, execNwkParseFcf, execNwkParsePacket, execNwkParseSechdr, runConstruct, runConfigure,
    runTransmit, runReceive, runEncAssocReq, runEncDataReq, runMacDecode, runBroadcastBeacon, runReceiveOnce,
    runWriteExpectAck, runAssociate, runNwkParsePacket, runNwkParseSechdr, oneStep,
    command_running h hs, hl] at he <;> first | (cases he; done) | (cases he; exact ⟨rfl, rfl⟩)

/-- A line of CONFIGURE after its first. -/
theorem exec_configure {i : Instr} {s t : State} {r : Run} {l : ConfigureLine} (h : s.halted = none)
    (hs : s.seqr = .running r) (hl : r.line = .configure l) (he : exec i s = .next t) :
    ∃ f, i = .configure f ∧ t = configureStep f l r s := by
  cases i <;> simp only [exec, execConstruct, execConfigure, execTransmit, execReceive, execEncBeaconReq,
    execEncAssocReq, execEncDataReq, execEncAck, execMacDecode, execBroadcastBeacon, execReceiveOnce,
    execWriteExpectAck, execAssociate, execNwkParseFcf, execNwkParsePacket, execNwkParseSechdr, runConstruct, runConfigure,
    runTransmit, runReceive, runEncAssocReq, runEncDataReq, runMacDecode, runBroadcastBeacon, runReceiveOnce,
    runWriteExpectAck, runAssociate, runNwkParsePacket, runNwkParseSechdr, oneStep,
    command_running h hs, hl] at he <;> first | (cases he; done) | (cases he; exact ⟨_, rfl, rfl⟩)

/-- The line that raises WRITE_EXPECT_ACK's timeout. -/
theorem exec_raiseTimeout {i : Instr} {s t : State} {r : Run} (h : s.halted = none)
    (hs : s.seqr = .running r) (hl : r.line = .raiseTimeout) (he : exec i s = .next t) :
    t = raiseError .protocolTimeout none s := by
  cases i <;> simp only [exec, execConstruct, execConfigure, execTransmit, execReceive, execEncBeaconReq,
    execEncAssocReq, execEncDataReq, execEncAck, execMacDecode, execBroadcastBeacon, execReceiveOnce,
    execWriteExpectAck, execAssociate, execNwkParseFcf, execNwkParsePacket, execNwkParseSechdr, runConstruct, runConfigure,
    runTransmit, runReceive, runEncAssocReq, runEncDataReq, runMacDecode, runBroadcastBeacon, runReceiveOnce,
    runWriteExpectAck, runAssociate, runNwkParsePacket, runNwkParseSechdr, oneStep,
    command_running h hs, hl] at he <;> first | (cases he; done) | (cases he; rfl)

/-- A command's last line ends the command, or logs WRITE_EXPECT_ACK's timeout. -/
theorem exec_finish {i : Instr} {s t : State} {r : Run} (h : s.halted = none)
    (hs : s.seqr = .running r) (hl : r.line = .finish) (he : exec i s = .next t) :
    (∃ v, t = post v s) ∨ (t = raiseError .parseError none s) ∨
      ∃ seq, i = .writeExpectAck seq ∧ t = goto r .raiseTimeout (log (.msgAckTimeout seq) s) := by
  cases i <;> simp only [exec, execConstruct, execConfigure, execTransmit, execReceive, execEncBeaconReq,
    execEncAssocReq, execEncDataReq, execEncAck, execMacDecode, execBroadcastBeacon, execReceiveOnce,
    execWriteExpectAck, execAssociate, execNwkParseFcf, execNwkParsePacket, execNwkParseSechdr, runConstruct, runConfigure,
    runTransmit, runReceive, runEncAssocReq, runEncDataReq, runMacDecode, runBroadcastBeacon, runReceiveOnce,
    runWriteExpectAck, runAssociate, runNwkParsePacket, runNwkParseSechdr, oneStep,
    command_running h hs, hl] at he <;> cases he <;> try exact .inl ⟨_, rfl⟩
  · unfold finishReceiveOnce
    split
    · exact .inl ⟨_, rfl⟩
    · exact .inr (.inl rfl)
  · unfold finishWait
    split
    · exact .inl ⟨_, rfl⟩
    · exact .inr (.inr ⟨_, rfl, rfl⟩)

/-- A command's first line halts the block, ends the command (a codec command), or goes on to its next line. -/
theorem exec_entry {i : Instr} {s t : State} {r : Run} (h : s.halted = none)
    (hs : s.seqr = .running r) (hl : r.line = .entry) (he : exec i s = .next t) :
    (∃ x, t = halt x s) ∨ (∃ v, t = post v s) ∨ t = raiseError .parseError none s ∨
      (i = .construct ∧ t = goto r (.construct .readHi) s) ∨
      (∃ f, i = .configure f ∧ t = goto r (.configure .rangeTest) s) ∨
      (∃ n, i = .transmit n ∧ t = callTransmit r.frame.ops.inp n .finish r r.frame s) ∨
      (i = .receive ∧ t = callReceive .finish r r.frame s) ∨
      (i = .broadcastBeacon ∧
        t = callTransmit (encodeFrame (beaconRequestRecord Config.beaconSeq))
          (onAirOf (encodeFrame (beaconRequestRecord Config.beaconSeq))) .finish r r.frame s) ∨
      (i = .receiveOnce ∧ t = callOnce .finish r r.frame s) ∨
      (∃ seq, i = .writeExpectAck seq ∧ t = callWait seq r.frame.ops.inp .finish r s) ∨
      (i = .associate ∧ t = goto r (.assoc .request) s) := by
  have parsed : ∀ v, (∃ w, postParsed v s = post w s) ∨ postParsed v s = raiseError .parseError none s := fun v => by
    cases v with
    | none => exact .inr rfl
    | some x => exact .inl ⟨_, rfl⟩
  cases i <;> simp only [exec, execConstruct, execConfigure, execTransmit, execReceive, execEncBeaconReq,
    execEncAssocReq, execEncDataReq, execEncAck, execMacDecode, execBroadcastBeacon, execReceiveOnce,
    execWriteExpectAck, execAssociate, execNwkParseFcf, execNwkParsePacket, execNwkParseSechdr, runConstruct, runConfigure,
    runTransmit, runReceive, runEncAssocReq, runEncDataReq, runMacDecode, runBroadcastBeacon, runReceiveOnce,
    runWriteExpectAck, runAssociate, runNwkParsePacket, runNwkParseSechdr, oneStep,
    command_running h hs, hl] at he
  case macDecode => cases he; rcases parsed _ with ⟨w, hw⟩ | hw <;> [exact .inr (.inl ⟨w, hw⟩); exact .inr (.inr (.inl hw))]
  case nwkParsePacket =>
    cases he; rcases parsed _ with ⟨w, hw⟩ | hw <;> [exact .inr (.inl ⟨w, hw⟩); exact .inr (.inr (.inl hw))]
  case nwkParseSechdr p =>
    cases he; rcases parsed _ with ⟨w, hw⟩ | hw <;> [exact .inr (.inl ⟨w, hw⟩); exact .inr (.inr (.inl hw))]
  all_goals first
    | (cases he; exact .inr (.inl ⟨_, rfl⟩))
    | (unfold needConstructed at he; split at he <;> cases he <;> first | exact .inl ⟨_, rfl⟩ | simp)
    | (split at he <;> cases he <;> first | exact .inl ⟨_, rfl⟩ | simp)

/-! ## The step of the interleaving -/

/-- The first listed turn is the next one. -/
theorem step_listed {s : State} {t : Turn} {ts : List Turn} (h : s.turns = t :: ts) :
    step s = agentStep t { s with turns := ts } := by
  simp [step, nextTurn, h]

/-- With no turn listed the order is the prompt one (log 2). -/
theorem step_prompt {s : State} (h : s.turns = []) : step s = agentStep (promptTurn s) s := by
  simp [step, nextTurn, h]

/-- Everything a step can be: some agent's, from the state with some other list of turns. -/
theorem step_cases (s : State) : ∃ t ts, step s = agentStep t { s with turns := ts } := by
  cases h : s.turns with
  | nil => exact ⟨promptTurn s, [], by rw [step_prompt h, ← h]⟩
  | cons t ts => exact ⟨t, ts, step_listed h⟩

/-- The controller's turn runs the running command's meaning. -/
theorem controllerStep_running {s : State} {r : Run} {i : Instr} (h : s.halted = none) (hs : s.seqr = .running r)
    (hd : decode r.frame.ops.cmd = .command i) : controllerStep s = exec i s := by
  simp [controllerStep, h, hs, hd]

end Sys2Proof.Machine
end

