-- ==== Sys2Proof/Laws/Agents.lean ====
section
/-! SUPPORT. What the host's, the controller's and the radio's steps can do, said once. -/

namespace Sys2Proof.Machine

/-- Every command's step on a block that is ready is the start step (rule R23). -/
theorem exec_idle (i : Instr) {s : State} (h : s.halted = none) (hs : s.seqr = .idle) :
    exec i s = .next (startCommand s) := by
  cases i <;> exact command_idle h hs

/-- A step of any command on a halted block changes nothing (rule R24). -/
theorem exec_halted (i : Instr) {s : State} (h : s.halted ≠ none) : exec i s = .next s := by
  cases i <;> exact command_halted h

/-- Everything the host's step can do: nothing; write a register; start a command; halt the block. -/
theorem hostStep_cases {s t : State} (h : hostStep s = .next t) :
    t = s ∨ ∃ w q, s.hostQ = w :: q ∧
      (t = { s with hostQ := q } ∨ t = { s with hostQ := q, host := s.host.set w } ∨
        (s.halted = none ∧ s.seqr = .idle ∧
          ((∃ c i, w = .cmd c ∧ decode c = .command i ∧
              t = startCommand { s with hostQ := q, host := s.host.set w }) ∨
            ∃ c x, w = .cmd c ∧ decode c = .reject x ∧
              t = halt .illegalCommand { s with hostQ := q, host := s.host.set w }))) := by
  unfold hostStep at h
  split at h
  · cases h; exact .inl rfl
  · rename_i w q hq
    refine .inr ⟨w, q, hq, ?_⟩
    cases w <;> simp only [hostWrite, writeCmd] at h <;> try (cases h; exact .inr (.inl rfl))
    rename_i c
    split at h
    · rename_i h1 h2
      split at h
      · rename_i i hd
        cases (exec_idle i (s := { s with host := s.host.set (.cmd c), hostQ := q }) h1 h2).symm.trans h
        exact .inr (.inr ⟨h1, h2, .inl ⟨_, _, rfl, hd, rfl⟩⟩)
      · rename_i x hd; cases h; exact .inr (.inr ⟨h1, h2, .inr ⟨_, x, rfl, hd, rfl⟩⟩)
    · cases h; exact .inl rfl

/-- Everything the controller's step can do: nothing while halted or Idle; the running command's line; a halt if the
sampled word is no command, which no start leaves. -/
theorem controllerStep_cases {s t : State} (h : controllerStep s = .next t) :
    t = s ∨ ∃ r, s.halted = none ∧ s.seqr = .running r ∧
      ((∃ i, decode r.frame.ops.cmd = .command i ∧ exec i s = .next t) ∨
        ((∃ x, decode r.frame.ops.cmd = .reject x) ∧ t = halt .illegalCommand s)) := by
  unfold controllerStep at h
  split at h
  · rename_i r h1 h2
    refine .inr ⟨r, h1, h2, ?_⟩
    split at h
    · rename_i i hd; exact .inl ⟨i, hd, h⟩
    · rename_i x hd; cases h; exact .inr ⟨⟨x, hd⟩, rfl⟩
  · cases h; exact .inl rfl

/-- What no radio transition touches. -/
theorem radioStep_frame (m : RadioMove) (s : State) :
    (radioStep m s).host = s.host ∧ (radioStep m s).res = s.res ∧ (radioStep m s).seqr = s.seqr ∧
      (radioStep m s).halted = s.halted ∧ (radioStep m s).constructed = s.constructed ∧
      (radioStep m s).ownExtended = s.ownExtended ∧ (radioStep m s).session = s.session ∧
      (radioStep m s).ficrHi = s.ficrHi ∧ (radioStep m s).ficrLo = s.ficrLo ∧
      (radioStep m s).sink = s.sink ∧ (radioStep m s).hostQ = s.hostQ ∧ (radioStep m s).turns = s.turns := by
  cases m <;> simp only [radioStep, takeTxen, takeRxen, takeStart, acceptStart, rampUp, txEnd, rxEnd] <;>
    (repeat' split) <;> simp

/-- The configuration registers no radio transition touches. -/
theorem radioStep_config (m : RadioMove) (s : State) :
    (radioStep m s).radio.shorts = s.radio.shorts ∧ (radioStep m s).radio.packetPtr = s.radio.packetPtr ∧
      (radioStep m s).radio.frequency = s.radio.frequency ∧ (radioStep m s).radio.mode = s.radio.mode ∧
      (radioStep m s).radio.pcnf0 = s.radio.pcnf0 ∧ (radioStep m s).radio.pcnf1 = s.radio.pcnf1 ∧
      (radioStep m s).radio.crcCnf = s.radio.crcCnf ∧ (radioStep m s).radio.crcPoly = s.radio.crcPoly := by
  cases m <;> simp only [radioStep, takeTxen, takeRxen, takeStart, acceptStart, rampUp, txEnd, rxEnd, packetEvents,
    rxDetails] <;> (repeat' split) <;> simp

/-- No radio transition touches a task register. -/
theorem radioStep_tasks (m : RadioMove) (s : State) : (radioStep m s).tasks = s.tasks := by
  cases m <;> simp only [radioStep, takeTxen, takeRxen, takeStart, acceptStart, rampUp, txEnd, rxEnd] <;>
    (repeat' split) <;> simp

end Sys2Proof.Machine
end

