-- ==== Sys2Proof/Laws/Bytes.lean ====
section
/-! SUPPORT. The readers undo the serialisers, and take exactly what the serialisers write. -/

namespace Sys2Proof.Machine

/-- The bytes of a 16-bit value join to it. -/
theorem join16 (v : Half) : (v.extractLsb' 8 8 ++ v.extractLsb' 0 8 : Half) = v := by
  rw [BitVec.extractLsb'_append_extractLsb'_eq_extractLsb' (by omega)]; simp

/-- The bytes of a 32-bit value join to it. -/
theorem join32 (v : Word) :
    (v.extractLsb' 24 8 ++ v.extractLsb' 16 8 ++ v.extractLsb' 8 8 ++ v.extractLsb' 0 8 : Word) = v := by
  rw [BitVec.extractLsb'_append_extractLsb'_eq_extractLsb' (by omega),
    BitVec.extractLsb'_append_extractLsb'_eq_extractLsb' (by omega),
    BitVec.extractLsb'_append_extractLsb'_eq_extractLsb' (by omega)]; simp

/-- The bytes of a 64-bit value join to it. -/
theorem join64 (v : Dword) :
    (v.extractLsb' 56 8 ++ v.extractLsb' 48 8 ++ v.extractLsb' 40 8 ++ v.extractLsb' 32 8 ++ v.extractLsb' 24 8
      ++ v.extractLsb' 16 8 ++ v.extractLsb' 8 8 ++ v.extractLsb' 0 8 : Dword) = v := by
  rw [BitVec.extractLsb'_append_extractLsb'_eq_extractLsb' (by omega),
    BitVec.extractLsb'_append_extractLsb'_eq_extractLsb' (by omega),
    BitVec.extractLsb'_append_extractLsb'_eq_extractLsb' (by omega),
    BitVec.extractLsb'_append_extractLsb'_eq_extractLsb' (by omega),
    BitVec.extractLsb'_append_extractLsb'_eq_extractLsb' (by omega),
    BitVec.extractLsb'_append_extractLsb'_eq_extractLsb' (by omega),
    BitVec.extractLsb'_append_extractLsb'_eq_extractLsb' (by omega)]; simp

/-- A field of a concatenation that lies in its low part. -/
theorem extract_append_low {n m : Nat} (x : BitVec n) (y : BitVec m) (k w : Nat) (h : k + w ≤ m) :
    (x ++ y).extractLsb' k w = y.extractLsb' k w := by
  ext i hi
  simp only [BitVec.getElem_extractLsb', BitVec.getLsbD_append]
  rw [if_pos (by omega)]

/-- A field of a concatenation that lies in its high part. -/
theorem extract_append_high {n m : Nat} (x : BitVec n) (y : BitVec m) (k w : Nat) (h : m ≤ k) :
    (x ++ y).extractLsb' k w = x.extractLsb' (k - m) w := by
  ext i hi
  simp only [BitVec.getElem_extractLsb', BitVec.getLsbD_append]
  rw [if_neg (by omega), show k + i - m = k - m + i by omega]

/-- The bytes of a joined 16-bit value. -/
theorem le16_join (a b : Byte) :
    le16 (b ++ a : Half) = [a, b] := by
  simp only [le16, List.cons.injEq, and_true]
  change BitVec.extractLsb' (n := 8 + 8) 0 8 (b ++ a) = a ∧
    BitVec.extractLsb' (n := 8 + 8) 8 8 (b ++ a) = b
  refine ⟨?_, ?_⟩
  · rw [extract_append_low _ _ _ _ (by omega)]; exact BitVec.extractLsb'_eq_self
  · rw [extract_append_high _ _ _ _ (by omega)]; exact BitVec.extractLsb'_eq_self

/-- The bytes of a joined 32-bit value. -/
theorem le32_join (a b c d : Byte) :
    le32 (d ++ c ++ b ++ a : Word) = [a, b, c, d] := by
  simp only [le32, List.cons.injEq, and_true]
  change BitVec.extractLsb' (n := 8 + 8 + 8 + 8) 0 8 (d ++ c ++ b ++ a) = a ∧
    BitVec.extractLsb' (n := 8 + 8 + 8 + 8) 8 8 (d ++ c ++ b ++ a) = b ∧
    BitVec.extractLsb' (n := 8 + 8 + 8 + 8) 16 8 (d ++ c ++ b ++ a) = c ∧
    BitVec.extractLsb' (n := 8 + 8 + 8 + 8) 24 8 (d ++ c ++ b ++ a) = d
  refine ⟨?_, ?_, ?_, ?_⟩
  · rw [extract_append_low _ _ _ _ (by omega)]; exact BitVec.extractLsb'_eq_self
  · rw [extract_append_high _ _ _ _ (by omega), extract_append_low _ _ _ _ (by omega)]; exact BitVec.extractLsb'_eq_self
  · rw [extract_append_high _ _ _ _ (by omega), extract_append_high _ _ _ _ (by omega), extract_append_low _ _ _ _ (by omega)]; exact BitVec.extractLsb'_eq_self
  · rw [extract_append_high _ _ _ _ (by omega), extract_append_high _ _ _ _ (by omega), extract_append_high _ _ _ _ (by omega)]; exact BitVec.extractLsb'_eq_self

/-- The bytes of a joined 64-bit value. -/
theorem le64_join (a b c d e f g h : Byte) :
    le64 (h ++ g ++ f ++ e ++ d ++ c ++ b ++ a : Dword) = [a, b, c, d, e, f, g, h] := by
  simp only [le64, List.cons.injEq, and_true]
  change BitVec.extractLsb' (n := 8 + 8 + 8 + 8 + 8 + 8 + 8 + 8) 0 8 (h ++ g ++ f ++ e ++ d ++ c ++ b ++ a) = a ∧
    BitVec.extractLsb' (n := 8 + 8 + 8 + 8 + 8 + 8 + 8 + 8) 8 8 (h ++ g ++ f ++ e ++ d ++ c ++ b ++ a) = b ∧
    BitVec.extractLsb' (n := 8 + 8 + 8 + 8 + 8 + 8 + 8 + 8) 16 8 (h ++ g ++ f ++ e ++ d ++ c ++ b ++ a) = c ∧
    BitVec.extractLsb' (n := 8 + 8 + 8 + 8 + 8 + 8 + 8 + 8) 24 8 (h ++ g ++ f ++ e ++ d ++ c ++ b ++ a) = d ∧
    BitVec.extractLsb' (n := 8 + 8 + 8 + 8 + 8 + 8 + 8 + 8) 32 8 (h ++ g ++ f ++ e ++ d ++ c ++ b ++ a) = e ∧
    BitVec.extractLsb' (n := 8 + 8 + 8 + 8 + 8 + 8 + 8 + 8) 40 8 (h ++ g ++ f ++ e ++ d ++ c ++ b ++ a) = f ∧
    BitVec.extractLsb' (n := 8 + 8 + 8 + 8 + 8 + 8 + 8 + 8) 48 8 (h ++ g ++ f ++ e ++ d ++ c ++ b ++ a) = g ∧
    BitVec.extractLsb' (n := 8 + 8 + 8 + 8 + 8 + 8 + 8 + 8) 56 8 (h ++ g ++ f ++ e ++ d ++ c ++ b ++ a) = h
  refine ⟨?_, ?_, ?_, ?_, ?_, ?_, ?_, ?_⟩
  · rw [extract_append_low _ _ _ _ (by omega)]; exact BitVec.extractLsb'_eq_self
  · rw [extract_append_high _ _ _ _ (by omega), extract_append_low _ _ _ _ (by omega)]; exact BitVec.extractLsb'_eq_self
  · rw [extract_append_high _ _ _ _ (by omega), extract_append_high _ _ _ _ (by omega), extract_append_low _ _ _ _ (by omega)]; exact BitVec.extractLsb'_eq_self
  · rw [extract_append_high _ _ _ _ (by omega), extract_append_high _ _ _ _ (by omega), extract_append_high _ _ _ _ (by omega), extract_append_low _ _ _ _ (by omega)]; exact BitVec.extractLsb'_eq_self
  · rw [extract_append_high _ _ _ _ (by omega), extract_append_high _ _ _ _ (by omega), extract_append_high _ _ _ _ (by omega), extract_append_high _ _ _ _ (by omega), extract_append_low _ _ _ _ (by omega)]; exact BitVec.extractLsb'_eq_self
  · rw [extract_append_high _ _ _ _ (by omega), extract_append_high _ _ _ _ (by omega), extract_append_high _ _ _ _ (by omega), extract_append_high _ _ _ _ (by omega), extract_append_high _ _ _ _ (by omega), extract_append_low _ _ _ _ (by omega)]; exact BitVec.extractLsb'_eq_self
  · rw [extract_append_high _ _ _ _ (by omega), extract_append_high _ _ _ _ (by omega), extract_append_high _ _ _ _ (by omega), extract_append_high _ _ _ _ (by omega), extract_append_high _ _ _ _ (by omega), extract_append_high _ _ _ _ (by omega), extract_append_low _ _ _ _ (by omega)]; exact BitVec.extractLsb'_eq_self
  · rw [extract_append_high _ _ _ _ (by omega), extract_append_high _ _ _ _ (by omega), extract_append_high _ _ _ _ (by omega), extract_append_high _ _ _ _ (by omega), extract_append_high _ _ _ _ (by omega), extract_append_high _ _ _ _ (by omega), extract_append_high _ _ _ _ (by omega)]; exact BitVec.extractLsb'_eq_self

@[simp] theorem length_le16 (v : Half) : (le16 v).length = 2 := rfl
@[simp] theorem length_le32 (v : Word) : (le32 v).length = 4 := rfl
@[simp] theorem length_le64 (v : Dword) : (le64 v).length = 8 := rfl

@[simp] theorem takeU8_cons (a : Byte) (r : Bytes) : takeU8 (a :: r) = some (a, r) := rfl

@[simp] theorem takeU16_le16 (v : Half) (r : Bytes) : takeU16 (le16 v ++ r) = some (v, r) := by
  simp only [le16, List.cons_append, List.nil_append, takeU16, join16]

@[simp] theorem takeU32_le32 (v : Word) (r : Bytes) : takeU32 (le32 v ++ r) = some (v, r) := by
  simp only [le32, List.cons_append, List.nil_append, takeU32, join32]

@[simp] theorem takeU64_le64 (v : Dword) (r : Bytes) : takeU64 (le64 v ++ r) = some (v, r) := by
  simp only [le64, List.cons_append, List.nil_append, takeU64, join64]

/-- What `takeU8` answers. -/
theorem takeU8_eq_some {B : Bytes} {p : Byte × Bytes} (h : takeU8 B = some p) : B = p.1 :: p.2 := by
  cases B with
  | nil => cases h
  | cons a r => cases h; rfl

/-- What `takeU16` answers. -/
theorem takeU16_eq_some {B : Bytes} {p : Half × Bytes} (h : takeU16 B = some p) : B = le16 p.1 ++ p.2 := by
  match B, h with
  | a :: b :: r, h => cases h; simp [le16_join]

/-- What `takeU32` answers. -/
theorem takeU32_eq_some {B : Bytes} {p : Word × Bytes} (h : takeU32 B = some p) : B = le32 p.1 ++ p.2 := by
  match B, h with
  | a :: b :: c :: d :: r, h => cases h; simp [le32_join]

/-- What `takeU64` answers. -/
theorem takeU64_eq_some {B : Bytes} {p : Dword × Bytes} (h : takeU64 B = some p) : B = le64 p.1 ++ p.2 := by
  match B, h with
  | a :: b :: c :: d :: e :: f :: g :: i :: r, h => cases h; simp [le64_join]

/-- What `skipBytes` answers. -/
theorem skipBytes_eq_some {n : Nat} {B r : Bytes} (h : skipBytes n B = some r) :
    n ≤ B.length ∧ B = B.take n ++ r := by
  unfold skipBytes at h
  split at h
  · cases h
  · cases h; exact ⟨by omega, (List.take_append_drop n B).symm⟩

/-- What `takeIf` answers. -/
theorem takeIf_eq_some {α : Type} {present : Bool} {take : Bytes → Option (α × Bytes)} {B : Bytes}
    {p : Option α × Bytes} (h : takeIf present take B = some p) :
    (present = true ∧ ∃ v, take B = some (v, p.2) ∧ p.1 = some v) ∨ (present = false ∧ p = (none, B)) := by
  unfold takeIf at h
  split at h
  · rename_i hp
    obtain ⟨v, hv, rfl⟩ := Option.map_eq_some_iff.mp h
    exact .inl ⟨hp, v.1, hv, rfl⟩
  · rename_i hp
    cases h
    exact .inr ⟨by simpa using hp, rfl⟩

end Sys2Proof.Machine
end

