-- ==== Sys2Proof/Laws/Memory.lean ====
section
/-! SUPPORT. The packet buffer's laws: a read after a write, the canonical form kept by every operation, equal contents
are equal data. -/

namespace Sys2Proof.Machine

@[simp] theorem Memory.lookup_nil (a : Nat) : Memory.lookup [] a = none := rfl

/-- A looked-up byte after a write. -/
theorem Memory.lookup_write (m : Memory) (a : Nat) (v : Byte) (x : Nat) :
    Memory.lookup (Memory.write m a v) x = if x = a then some v else Memory.lookup m x := by
  induction m with
  | nil => simp [Memory.write, Memory.lookup]
  | cons c m ih =>
    obtain ⟨b, w⟩ := c
    simp only [Memory.write]
    split
    · simp [Memory.lookup]
    · split
      · rename_i h
        subst h
        simp only [Memory.lookup]
        split <;> rfl
      · rename_i h
        simp only [Memory.lookup, ih]
        split
        · rename_i hx
          rw [if_neg (by omega)]
        · rfl

/-- A read after a write of one byte. -/
theorem Memory.read_write (m : Memory) (a : Nat) (v : Byte) (x : Nat) :
    Memory.read (Memory.write m a v) x = if x = a then v else Memory.read m x := by
  simp only [Memory.read, Memory.lookup_write]
  split <;> rfl

@[simp] theorem Memory.read_write_same (m : Memory) (a : Nat) (v : Byte) :
    Memory.read (Memory.write m a v) a = v := by
  simp [Memory.read_write]

/-- A read before the bytes written. -/
theorem Memory.read_writeBytes_below (m : Memory) (a : Nat) (bs : Bytes) (x : Nat) (h : x < a) :
    Memory.read (Memory.writeBytes m a bs) x = Memory.read m x := by
  induction bs generalizing m a with
  | nil => rfl
  | cons v bs ih =>
    rw [Memory.writeBytes, ih _ _ (by omega), Memory.read_write, if_neg (by omega)]

/-- A read after the bytes written. -/
theorem Memory.read_writeBytes_above (m : Memory) (a : Nat) (bs : Bytes) (x : Nat) (h : a + bs.length ≤ x) :
    Memory.read (Memory.writeBytes m a bs) x = Memory.read m x := by
  induction bs generalizing m a with
  | nil => rfl
  | cons v bs ih =>
    simp only [List.length_cons] at h
    rw [Memory.writeBytes, ih _ _ (by omega), Memory.read_write, if_neg (by omega)]

/-- A read of a byte written. -/
theorem Memory.read_writeBytes_at (m : Memory) (a : Nat) (bs : Bytes) (i : Nat) (h : i < bs.length) :
    Memory.read (Memory.writeBytes m a bs) (a + i) = bs[i] := by
  induction bs generalizing m a i with
  | nil => simp at h
  | cons v bs ih =>
    rw [Memory.writeBytes]
    cases i with
    | zero => rw [Memory.read_writeBytes_below _ _ _ _ (by omega)]; simp
    | succ i =>
      have := ih (Memory.write m a v) (a + 1) i (by simpa using h)
      rw [show a + (i + 1) = a + 1 + i by omega, this]
      rfl

@[simp] theorem Memory.length_readBytes (m : Memory) (a n : Nat) : (Memory.readBytes m a n).length = n := by
  induction n generalizing a with
  | zero => rfl
  | succ n ih => simp [Memory.readBytes, ih]

/-- The bytes written read back. -/
theorem Memory.readBytes_writeBytes (m : Memory) (a : Nat) (bs : Bytes) :
    Memory.readBytes (Memory.writeBytes m a bs) a bs.length = bs := by
  induction bs generalizing m a with
  | nil => rfl
  | cons v bs ih =>
    simp only [List.length_cons, Memory.readBytes, Memory.writeBytes, ih]
    rw [Memory.read_writeBytes_below _ _ _ _ (by omega)]
    simp

/-- One write keeps the canonical form from any lower bound. -/
theorem Memory.wfFrom_write (m : Memory) (lo a : Nat) (v : Byte) (hm : Memory.wfFrom lo m = true) (hlo : lo ≤ a)
    (ha : a < Config.bufCap) : Memory.wfFrom lo (Memory.write m a v) = true := by
  induction m generalizing lo with
  | nil => simp [Memory.write, Memory.wfFrom, hlo, ha]
  | cons c m ih =>
    obtain ⟨b, w⟩ := c
    simp only [Memory.wfFrom, Bool.and_eq_true, decide_eq_true_eq] at hm
    obtain ⟨⟨h1, h2⟩, h3⟩ := hm
    simp only [Memory.write]
    split
    · simp [Memory.wfFrom, hlo, ha, h2, h3]; omega
    · split
      · rename_i h
        subst h
        simp [Memory.wfFrom, hlo, ha, h3]
      · simp only [Memory.wfFrom, Bool.and_eq_true, decide_eq_true_eq]
        exact ⟨⟨h1, h2⟩, ih _ h3 (by omega)⟩

/-- One write inside the buffer keeps the canonical form. -/
theorem Memory.wf_write (m : Memory) (a : Nat) (v : Byte) (hm : Memory.wf m = true) (ha : a < Config.bufCap) :
    Memory.wf (Memory.write m a v) = true :=
  Memory.wfFrom_write m 0 a v hm (Nat.zero_le a) ha

/-- A byte string written inside the buffer keeps the canonical form. -/
theorem Memory.wf_writeBytes (m : Memory) (a : Nat) (bs : Bytes) (hm : Memory.wf m = true)
    (ha : a + bs.length ≤ Config.bufCap) : Memory.wf (Memory.writeBytes m a bs) = true := by
  induction bs generalizing m a with
  | nil => exact hm
  | cons v bs ih =>
    simp only [List.length_cons] at ha
    exact ih _ _ (Memory.wf_write m a v hm (by omega)) (by omega)

/-- The empty buffer is canonical. -/
theorem Memory.wf_nil : Memory.wf [] = true := rfl

/-- A listed index of a canonical memory is at least its lower bound. -/
theorem Memory.lookup_below (m : Memory) (lo x : Nat) (hm : Memory.wfFrom lo m = true) (hx : x < lo) :
    Memory.lookup m x = none := by
  induction m generalizing lo with
  | nil => rfl
  | cons c m ih =>
    obtain ⟨b, w⟩ := c
    simp only [Memory.wfFrom, Bool.and_eq_true, decide_eq_true_eq] at hm
    simp only [Memory.lookup]
    rw [if_neg (by omega), ih (b + 1) hm.2 (by omega)]

/-- Canonical memories that hold the same bytes are equal data. -/
theorem Memory.ext_of_wfFrom (m n : Memory) (lo : Nat) (hm : Memory.wfFrom lo m = true)
    (hn : Memory.wfFrom lo n = true) (h : ∀ x, Memory.lookup m x = Memory.lookup n x) : m = n := by
  induction m generalizing n lo with
  | nil =>
    cases n with
    | nil => rfl
    | cons c n => have := h c.1; simp [Memory.lookup] at this
  | cons c m ih =>
    obtain ⟨b, v⟩ := c
    cases n with
    | nil => have := h b; simp [Memory.lookup] at this
    | cons d n =>
      obtain ⟨b', v'⟩ := d
      simp only [Memory.wfFrom, Bool.and_eq_true, decide_eq_true_eq] at hm hn
      have hb : b = b' := by
        by_contra hne
        rcases Nat.lt_or_gt_of_ne hne with hlt | hlt
        · have := h b
          simp only [Memory.lookup, if_true, if_neg hne, Memory.lookup_below n (b' + 1) b hn.2 (by omega)] at this
          cases this
        · have := h b'
          simp only [Memory.lookup, if_true, if_neg (Ne.symm hne),
            Memory.lookup_below m (b + 1) b' hm.2 (by omega)] at this
          cases this
      subst hb
      have hv : v = v' := by have := h b; simpa [Memory.lookup] using this
      subst hv
      have : m = n := by
        refine ih n (b + 1) hm.2 hn.2 fun x => ?_
        by_cases hx : x = b
        · subst hx
          rw [Memory.lookup_below m (x + 1) x hm.2 (by omega), Memory.lookup_below n (x + 1) x hn.2 (by omega)]
        · have := h x
          simpa [Memory.lookup, hx] using this
      rw [this]

/-- Canonical buffers that hold the same bytes are equal data. -/
theorem Memory.ext_of_wf (m n : Memory) (hm : Memory.wf m = true) (hn : Memory.wf n = true)
    (h : ∀ x, Memory.lookup m x = Memory.lookup n x) : m = n :=
  Memory.ext_of_wfFrom m n 0 hm hn h

end Sys2Proof.Machine
end

