-- ==== Sys2Proof/Laws/PerInstr.lean ====
section
/-! SUPPORT. The fields of a command's word, per command. -/

namespace Sys2Proof

/-- The opcode field of a command word built from its fields (rule R82). -/
theorem opcField_commandWord (imm : Half) (seq opc : Byte) : opcField (commandWord imm seq opc) = opc := by
  ext i hi
  simp only [opcField, commandWord, BitVec.getElem_extractLsb', Nat.zero_add, BitVec.getLsbD_append]
  simp [hi, BitVec.getLsbD_eq_getElem]

/-- The sequence field of a command word built from its fields (rule R82). -/
theorem seqField_commandWord (imm : Half) (seq opc : Byte) : seqField (commandWord imm seq opc) = seq := by
  ext i hi
  have h1 : ¬ (8 + i < 8) := by omega
  have h2 : 8 + i - 8 = i := by omega
  have h3 : 8 + i < 16 := by omega
  simp only [seqField, commandWord, BitVec.getElem_extractLsb', BitVec.getLsbD_append, h1, h2, if_false]
  simp [hi, BitVec.getLsbD_eq_getElem]

/-- The immediate field of a command word built from its fields (rule R82). -/
theorem imm16Field_commandWord (imm : Half) (seq opc : Byte) : imm16Field (commandWord imm seq opc) = imm := by
  ext i hi
  have h1 : ¬ (16 + i < 8) := by omega
  have h2 : ¬ (16 + i - 8 < 8) := by omega
  have h3 : 16 + i - 8 - 8 = i := by omega
  simp only [imm16Field, commandWord, BitVec.getElem_extractLsb', BitVec.getLsbD_append, h1, h2, h3, if_false]
  simp [hi, BitVec.getLsbD_eq_getElem]

end Sys2Proof

namespace Sys2Proof.Laws.CommandWord

/-- The word of a command carries its opcode and its operands in the fields of rule R82. -/
def Statement (i : Instr) : Prop :=
  i.wf = true →
    opcField (encode i) = i.opcode ∧ seqField (encode i) = i.seqOperand ∧ imm16Field (encode i) = i.imm16Operand

/-- The fields of any command's word. -/
theorem encode_fields (i : Instr) : Statement i :=
  fun _ => ⟨opcField_commandWord _ _ _, seqField_commandWord _ _ _, imm16Field_commandWord _ _ _⟩

theorem construct : Statement .construct := encode_fields _
theorem configure (f : Nat) : Statement (.configure f) := encode_fields _
theorem transmit (len : Byte) : Statement (.transmit len) := encode_fields _
theorem receive : Statement .receive := encode_fields _
theorem encBeaconReq (seq : Byte) : Statement (.encBeaconReq seq) := encode_fields _
theorem encAssocReq (seq : Byte) : Statement (.encAssocReq seq) := encode_fields _
theorem encDataReq (seq : Byte) : Statement (.encDataReq seq) := encode_fields _
theorem encAck (seq : Byte) : Statement (.encAck seq) := encode_fields _
theorem macDecode : Statement .macDecode := encode_fields _
theorem broadcastBeacon : Statement .broadcastBeacon := encode_fields _
theorem receiveOnce : Statement .receiveOnce := encode_fields _
theorem writeExpectAck (seq : Byte) : Statement (.writeExpectAck seq) := encode_fields _
theorem associate : Statement .associate := encode_fields _
theorem nwkParseFcf (fcw : Half) : Statement (.nwkParseFcf fcw) := encode_fields _
theorem nwkParsePacket : Statement .nwkParsePacket := encode_fields _
theorem nwkParseSechdr (p : Nat) : Statement (.nwkParseSechdr p) := encode_fields _

end Sys2Proof.Laws.CommandWord
end

