-- ==== Sys2Proof/Laws/Rec.lean ====
section
/-! SUPPORT. Two ways to prove a property of the state after a step: case by case over what the step can do. -/

namespace Sys2Proof.Machine

/-- A property holds after a running command's step if it holds after each kind of line: the lines of the two radio
procedures, CONSTRUCT, CONFIGURE and ASSOCIATE, and the dispatch line, are given as they are. -/
theorem running_rec {i : Instr} {s t : State} {r : Run} (h : s.halted = none) (hs : s.seqr = .running r) (he : exec i s = .next t)
   (P : State → Prop)
   (hhalt : ∀ x, P (halt x s)) (hpost : ∀ v, P (post v s)) (hraise : ∀ e v, e ≠ .busy → e ≠ .halted → P (raiseError e v s))
   (hgo : ∀ l f, f.ops = r.frame.ops → P (gotoWith r l f s)) (hlog : ∀ l m, P (goto r l (log m s)))
   (htx : ∀ l, r.line = .tx l → txStep l r s = .next t → P t)
   (hrx : ∀ l, r.line = .rx l → rxStep l r s = .next t → P t)
   (hco : ∀ l, r.line = .construct l → P (constructStep l r s))
   (hcf : ∀ f l, r.line = .configure l → P (configureStep f l r s))
   (has : ∀ l, r.line = .assoc l → P (assocStep l r s))
   (hdisp : r.line = .once .dispatch → P (onceDispatch r s)) : P t := by
  cases hl : r.line with
  | entry =>
    rcases exec_entry h hs hl he with ⟨x, rfl⟩ | ⟨v, rfl⟩ | rfl | ⟨_, rfl⟩ | ⟨f, _, rfl⟩ | ⟨n, _, rfl⟩ | ⟨_, rfl⟩ | ⟨_, rfl⟩ | ⟨_, rfl⟩ | ⟨_, _, rfl⟩ | ⟨_, rfl⟩
    · exact hhalt _
    · exact hpost _
    · exact hraise _ _ (by decide) (by decide)
    · exact hgo _ r.frame rfl
    · exact hgo _ r.frame rfl
    · exact hgo _ _ rfl
    · exact hgo _ _ rfl
    · exact hgo _ _ rfl
    · exact hgo _ _ rfl
    · exact hgo _ _ rfl
    · exact hgo _ r.frame rfl
  | construct l => obtain ⟨_, rfl⟩ := exec_construct h hs hl he; exact hco l hl
  | configure l => obtain ⟨_, _, rfl⟩ := exec_configure h hs hl he; exact hcf _ l hl
  | tx l => exact htx l hl (exec_tx h hs hl he)
  | rx l => exact hrx l hl (exec_rx h hs hl he)
  | once l =>
    obtain rfl := exec_once h hs hl he
    cases l with
    | decode =>
      simp only [onceStep, onceDecode]; split
      · exact hgo _ _ rfl
      · split
        · split
          · exact hgo _ _ rfl
          · exact hgo _ _ rfl
        · exact hgo _ _ rfl
    | logParse => exact hlog _ _
    | dispatch => exact hdisp hl
    | nwk =>
      simp only [onceStep, onceNwk]; split
      · exact hgo _ r.frame rfl
      · split
        · exact hgo _ _ rfl
        · exact hgo _ _ rfl
    | logNwk => exact hlog _ _
  | wait l =>
    obtain rfl := exec_wait h hs hl he
    cases l with
    | check => simp only [waitStep]; split; exact hhalt _; exact hgo _ _ rfl
    | loop => simp only [waitStep]; split; exact hgo _ _ rfl; exact hgo _ _ rfl
    | tally => simp only [waitStep]; split; exact hgo _ _ rfl; exact hgo _ _ rfl
  | assoc l => obtain ⟨_, rfl⟩ := exec_assoc h hs hl he; exact has l hl
  | finish =>
    rcases exec_finish h hs hl he with ⟨v, rfl⟩ | rfl | ⟨_, _, rfl⟩
    · exact hpost _
    · exact hraise _ _ (by decide) (by decide)
    · exact hlog _ _
  | raiseTimeout => obtain rfl := exec_raiseTimeout h hs hl he; exact hraise _ _ (by decide) (by decide)

/-- A property holds after a step if it holds after each kind of step of each agent. -/
theorem step_rec {s t : State} (h : step s = .next t) (P : State → Prop)
  (hturn : ∀ ts q, P { s with turns := ts, hostQ := q })
  (hhost : ∀ ts q w, P { s with turns := ts, hostQ := q, host := s.host.set w })
  (hbegin : ∀ ts q c i, s.halted = none → s.seqr = .idle → decode c = .command i → P (startCommand { s with turns := ts, hostQ := q, host := s.host.set (.cmd c) }))
  (hill : ∀ ts q w, s.halted = none → s.seqr = .idle → P (halt .illegalCommand { s with turns := ts, hostQ := q, host := s.host.set w }))
  (hctl : ∀ ts r i, s.halted = none → s.seqr = .running r → decode r.frame.ops.cmd = .command i → exec i { s with turns := ts } = .next t → P t)
  (hstray : ∀ ts r x, s.halted = none → s.seqr = .running r → decode r.frame.ops.cmd = .reject x → P (halt .illegalCommand { s with turns := ts }))
  (hrad : ∀ ts m, P (radioStep m { s with turns := ts })) : P t := by
  obtain ⟨tn, ts, e⟩ := step_cases s
  rw [e] at h
  cases tn with
  | host =>
    rcases hostStep_cases h with rfl | ⟨w, q, hq, rfl | rfl | ⟨h1, h2, ⟨c, i, rfl, hd, rfl⟩ | ⟨c, x, rfl, hd, rfl⟩⟩⟩
    · exact hturn _ _
    · exact hturn _ _
    · exact hhost _ _ _
    · exact hbegin _ _ _ _ h1 h2 hd
    · exact hill _ _ _ h1 h2
  | controller =>
    rcases controllerStep_cases h with rfl | ⟨r, h1, h2, ⟨i, hd, he⟩ | ⟨⟨x, hd⟩, rfl⟩⟩
    · exact hturn _ _
    · exact hctl _ _ _ h1 h2 hd he
    · exact hstray _ _ _ h1 h2 hd
  | radio m => cases h; exact hrad _ _

/-- A property holds after a line of TransmitBlocking if it holds after each kind of line. -/
theorem tx_rec {l : TxLine} {r : Run} {s t : State} (he : txStep l r s = .next t) (P : State → Prop)
  (h1 : ∀ x, P (halt x s)) (h2 : ∀ l f, f.ops = r.frame.ops → P (gotoWith r l f s))
  (h3 : l = .writeLen → P (goto r (.tx .writeBytes) (bufStore 0 [r.frame.txOnAir] s)))
  (h4 : l = .writeBytes → 1 + r.frame.txBytes.length ≤ 256 → P (goto r (.tx .shorts) (bufStore 1 r.frame.txBytes s)))
  (h5 : P (goto r (.tx .readState) (regWrite .shorts 0 s)))
  (h6 : P (goto r (.tx .pollReady) (regWrite .tasksTxen 1 s)))
  (h7 : P (goto r (.tx .pollDone) (regWrite .tasksStart 1 s))) : P t := by
  cases l <;> simp only [txStep] at he
  case check => split at he <;> cases he; exact h1 _; exact h2 _ r.frame rfl
  case writeLen => obtain ⟨ha, he⟩ := memWrite_next he; cases he; exact h3 rfl
  case writeBytes => obtain ⟨ha, he⟩ := memWrite_next he; cases he; exact h4 rfl ha
  case enable => split at he <;> cases he; exact h2 _ r.frame rfl; exact h6
  case pollReady => rw [pollStep_eq] at he; cases he; split <;> exact h2 _ r.frame rfl
  case pollDone => rw [pollStep_eq] at he; cases he; split <;> exact h2 _ r.frame rfl
  case shorts => cases he; exact h5
  case readState => cases he; exact h2 _ _ rfl
  case start => cases he; exact h7
/-- A property holds after a line of ReceiveBlocking if it holds after each kind of line. -/
theorem rx_rec {l : RxLine} {r : Run} {s t : State} (he : rxStep l r s = .next t) (P : State → Prop)
  (h2 : ∀ l f, f.ops = r.frame.ops → P (gotoWith r l f s))
  (h5 : P (goto r (.rx .readState) (regWrite .shorts 0 s)))
  (h6 : P (goto r (.rx .pollReady) (regWrite .tasksRxen 1 s)))
  (h7 : P (goto r (.rx .pollDone) (regWrite .tasksStart 1 s))) : P t := by
  cases l <;> simp only [rxStep] at he
  case enable => split at he <;> cases he; exact h2 _ r.frame rfl; exact h6
  case pollReady => rw [pollStep_eq] at he; cases he; split <;> exact h2 _ r.frame rfl
  case pollDone => rw [pollStep_eq] at he; cases he; split <;> exact h2 _ r.frame rfl
  case readLen => obtain ⟨ha, he⟩ := memRead_next he; cases he; exact h2 _ _ rfl
  case readFrame => obtain ⟨ha, he⟩ := memRead_next he; cases he; exact h2 _ _ rfl
  case shorts => cases he; exact h5
  case readState => cases he; exact h2 _ _ rfl
  case start => cases he; exact h7

end Sys2Proof.Machine
end

