-- ==== Sys2Proof/Laws/Records.lean ====
section
/-! SUPPORT. The frame control words of the records the block builds. -/

namespace Sys2Proof.Machine

/-- The frame control of a beacon request. -/
@[simp] theorem frameControl_beaconRequest (q : Byte) : frameControl (beaconRequestRecord q) = 0x0803 := by
  change (0#2 ++ 0#2 ++ 2#2 ++ 0#3 ++ bit false ++ bit false ++ bit false ++ bit false ++ 3#3 : Half) = 0x0803; decide

/-- The frame control of an association request. -/
@[simp] theorem frameControl_assocRequest (q : Byte) (x : Dword) (p a : Half) (c : Byte) :
    frameControl (assocRequestRecord q x p a c) = 0xc823 := by
  change (3#2 ++ 0#2 ++ 2#2 ++ 0#3 ++ bit false ++ bit true ++ bit false ++ bit false ++ 3#3 : Half) = 0xc823; decide

/-- The frame control of a data request without PAN ID compression. -/
@[simp] theorem frameControl_dataRequest (q : Byte) (sp : Half) (x : Dword) (p a : Half) :
    frameControl (dataRequestRecord false q sp x p a) = 0xc823 := by
  change (3#2 ++ 0#2 ++ 2#2 ++ 0#3 ++ bit false ++ bit true ++ bit false ++ bit false ++ 3#3 : Half) = 0xc823; decide

/-- The frame control of an acknowledgement. -/
@[simp] theorem frameControl_ack (q : Byte) : frameControl (ackRecord q) = 0x0002 := by
  change (0#2 ++ 0#2 ++ 0#2 ++ 0#3 ++ bit false ++ bit false ++ bit false ++ bit false ++ 2#3 : Half) = 0x0002; decide

end Sys2Proof.Machine
end

