-- ==== Sys2Proof/Tests/Slice0.lean ====
section
/-! SUPPORT. Tests: ill-formed terms refused, command words written out from rules R82 and R83, vectors of
95_test_vectors.md (each test names its rows), and, for every statement with hypotheses, a named witness: a concrete
state and operands that meet them, clause by clause. -/

namespace Sys2Proof.Tests

open Sys2Proof.Machine

/-! ## Small states -/

/-- The state a step answers, if it answers one. -/
def nextOf (o : Host.Outcome State Fault Refusal) : Option State :=
  match o with
  | .next t => some t
  | _ => none

/-- The status and the value a step posts. -/
def resultOf (o : Host.Outcome State Fault Refusal) : Option (Status × Option Value) :=
  (nextOf o).bind fun t => t.res.map fun r => (r.status, r.value)

/-- Why the block has halted after a step. -/
def haltOf (o : Host.Outcome State Fault Refusal) : Option HaltReason := (nextOf o).bind fun t => t.halted

/-- The line and the local values after a step. -/
def runAfter (o : Host.Outcome State Fault Refusal) : Option Run :=
  (nextOf o).bind fun t => match t.seqr with
    | .running r => some r
    | .idle => none

/-- P1's device identity, with the radio configured as by R-3 and the block constructed. -/
def base : State := { State.reset with
  constructed := true
  ownExtended := 0x0011223344556677
  ficrHi := 0x00112233
  ficrLo := 0x44556677
  radio := { RadioRegs.reset with mode := 15, pcnf0 := 0x04000008, crcCnf := 0x00000202 } }

/-- Operand registers of P2, with IN and the command word given. -/
def operands (i : Instr) (inp : Bytes) : HostRegs := { HostRegs.reset with
  cmd := encode i
  ext := 0x0011223344556677
  dpan := 0x1234
  dshort := 0x0000
  span := 0x1234
  cap := 0x80
  inp := inp }

/-- The local values at a command's start. -/
def frameOf (i : Instr) (inp : Bytes) : Frame := Frame.start (operands i inp)

/-- A position of a running command. -/
def runOf (i : Instr) (l : Line) (f : Frame) : Run := { op := i.opcode, line := l, frame := f }

/-- A state in which a command runs. -/
def busy (r : Run) : State := { base with
  seqr := .running r
  res := some { status := .busy, halt := none, value := none, session := base.session } }

/-- The state at a command's first line. -/
def atEntry (i : Instr) (inp : Bytes) : State := busy (runOf i .entry (frameOf i inp))

/-- The state before the host's write of a command word. -/
def issue (w : Word) : State := { base with hostQ := [.cmd w], turns := [.host] }

/-- The same with no turn listed, in a radio state, with frames the air is to deliver. -/
def issuePrompt (w : Word) (r : RadioState) (fs : List AirFrame) : State :=
  { base with hostQ := [.cmd w], rstate := r, airIn := fs }

/-- A frame the air delivers. -/
def airFrame (b : Bytes) : AirFrame := { bytes := b, crcOk := true, rxMatch := 0, rxCrc := 0, dai := 0 }

/-! ## Well-formedness: the ill-formed terms -/

theorem test_wf_frequency : Instr.wf (.configure 65536) = false ∧ Instr.wf (.configure 65535) = true := by decide
theorem test_wf_cursor : Instr.wf (.nwkParseSechdr 65536) = false ∧ Instr.wf (.nwkParseSechdr 65535) = true := by
  decide
theorem test_record_inconsistent : MacFrame.consistent { ackRecord 1 with content := .dataRequest } = false := by
  decide

/-! ## Decoding: words written out bit by bit from rules R82, R83 (IMM16, SEQ, OPC) -/

theorem test_decode_construct : decode 0b0000000000000000_00000000_00000001 = .command .construct := by decide
theorem test_decode_configure : decode 0b0000100101100101_00000000_00000010 = .command (.configure 2405) := by decide
theorem test_decode_transmit : decode 0b1111111100001010_00000000_00000011 = .command (.transmit 10) := by decide
theorem test_decode_receive : decode 0b0000000000000000_00000000_00000100 = .command .receive := by decide
theorem test_decode_encBeaconReq : decode 0b0000000000000000_00101010_00010000 = .command (.encBeaconReq 42) := by
  decide
theorem test_decode_encAssocReq : decode 0b0000000000000000_00101011_00010001 = .command (.encAssocReq 43) := by decide
theorem test_decode_encDataReq : decode 0b0000000000000000_00101100_00010010 = .command (.encDataReq 44) := by decide
theorem test_decode_encAck : decode 0b0000000000000000_00101011_00010011 = .command (.encAck 43) := by decide
theorem test_decode_macDecode : decode 0b0000000000000000_00000000_00010100 = .command .macDecode := by decide
theorem test_decode_broadcastBeacon : decode 0b0000000000000000_00000000_00100000 = .command .broadcastBeacon := by
  decide
theorem test_decode_receiveOnce : decode 0b0000000000000000_00000000_00100001 = .command .receiveOnce := by decide
theorem test_decode_writeExpectAck : decode 0b0000000000000000_00101100_00100010 = .command (.writeExpectAck 44) := by
  decide
theorem test_decode_associate : decode 0b0000000000000000_00000000_00100011 = .command .associate := by decide
theorem test_decode_nwkParseFcf : decode 0b0001101000001001_00000000_00110000 = .command (.nwkParseFcf 0x1a09) := by
  decide
theorem test_decode_nwkParsePacket : decode 0b0000000000000000_00000000_00110001 = .command .nwkParsePacket := by
  decide
theorem test_decode_nwkParseSechdr : decode 0b0000000000001000_00000000_00110010 = .command (.nwkParseSechdr 8) := by
  decide

/-- X-1 to X-4. -/
theorem test_illegal_words : [0x00000000, 0x00000005, 0x12345615, 0x000000ff].map
    (fun w => haltOf (step (issue w))) = List.replicate 4 (some .illegalCommand) := by decide

/-- The opcode-table word comes back as the command it starts. -/
theorem test_fetch_word : runAfter (.next (State.reset.withFetchWord 32 0x00002b13)) =
    some { op := 0x13, line := .entry, frame := Frame.start { HostRegs.reset with cmd := 0x00002b13 } } ∧
    resultOf (step (State.reset.withFetchWord 32 0x00002b13)) = some (.ok, some (.bytes [0x02, 0x00, 0x2b])) := by
  decide

/-! ## Radio controller -/

/-- R-17. -/
theorem test_construct_again : haltOf (exec .construct (atEntry .construct [])) = some .alreadyConstructed := by decide

/-- R-1: the identity's halves in their places. -/
theorem test_construct_identity : (nextOf (exec .construct (busy (runOf .construct (.construct .setExtended)
    { frameOf .construct [] with hi := 0x00112233, lo := 0x44556677 })))).map (·.ownExtended)
    = some 0x0011223344556677 := by decide

/-- S1's table. -/
theorem test_frequency : [2360, 2361, 2399, 2400, 2405, 2450, 2480, 2500].map freqEncode =
      [0x00000100, 0x00000101, 0x00000127, 0x00000000, 0x00000005, 0x00000032, 0x00000050, 0x00000064] ∧
    [2359, 2501, 0, 65535].map freqValid = [false, false, false, false] := by decide

/-- S1, row 2501. -/
theorem test_configure_range : resultOf (exec (.configure 2501)
    (busy (runOf (.configure 2501) (.configure .rangeTest) (frameOf (.configure 2501) [])))) = some (.rangeError, none) :=
  by decide

/-- R-10: 256 bytes halt. -/
theorem test_transmit_overflow : haltOf (exec (.transmit 255) (busy (runOf (.transmit 255) (.tx .check)
    { frameOf (.transmit 255) [] with txBytes := List.replicate 256 0 }))) = some .bufferOverflow := by decide +kernel

/-- R-7: five on the air, two of them the FCS. -/
theorem test_transmit_air : (nextOf (step { base with
    rstate := .tx
    turns := [.radio .txEnd]
    airConf := true
    txLen := 5
    txImage := Memory.writeBytes [] 0 [0x05, 0x03, 0x08, 0x2a, 0xff, 0xff, 0xff, 0xff, 0x07] })).map (·.airOut)
    = some [.frame 5 [0x03, 0x08, 0x2a]] := by decide

/-- R-12: the frame is in the buffer, its length before it. -/
theorem test_receive_air : (nextOf (step { base with
    rstate := .rx
    turns := [.radio .rxEnd]
    airConf := true
    airIn := [airFrame [0x02, 0x00, 0x2b, 0x5c, 0x91]] })).map (fun t => (t.rstate, Memory.readBytes t.buf 0 6))
    = some (.rxIdle, [0x05, 0x02, 0x00, 0x2b, 0x5c, 0x91]) := by decide

/-- Row 16 of 93_implementation_defined.md: a bit outside MODE's field leaves the air's frames undescribed. -/
theorem test_air_configuration : airConfigured base.radio = true ∧
    airConfigured { base.radio with mode := 0x1f } = false ∧
    airConfigured { base.radio with crcCnf := 0x00000203 } = false := by decide

/-- The fields table of rule R33. -/
theorem test_register_fields : Reg.mask .frequency = 0x0000017f ∧ Reg.mask .pcnf0 = 0x071f010f ∧
    Reg.mask .pcnf1 = 0x0007ffff ∧ Reg.mask .crcCnf = 0x00000303 ∧ Reg.mask .tifs = 0x000003ff ∧
    Reg.mask .prefix0 = 0xffffffff ∧ Field.crcinc.put 1 = 0x04000000 := by decide

/-- Rules R34, R51: a task register is 0 at reset, a write of 0 or of another value than 1 raises nothing. -/
theorem test_task_register : regRead .tasksTxen State.reset = 0 ∧ regWrite .tasksTxen 0 base = base ∧
    (regWrite .tasksTxen 2 base).pending = base.pending ∧ (regWrite .tasksTxen 1 base).pending.txen = true := by
  decide

/-- R-13. -/
theorem test_receive_empty : resultOf (exec .receive (busy (runOf .receive .finish (frameOf .receive []))))
    = some (.ok, some (.received 0 [])) := by decide

/-! ## MAC codec -/

/-- E-1, E-3. -/
theorem test_encBeaconReq : ([0x2a, 0xff] : List Byte).map
    (fun q => resultOf (exec (.encBeaconReq q) (atEntry (.encBeaconReq q) []))) =
    [some (.ok, some (.bytes [0x03, 0x08, 0x2a, 0xff, 0xff, 0xff, 0xff, 0x07])),
     some (.ok, some (.bytes [0x03, 0x08, 0xff, 0xff, 0xff, 0xff, 0xff, 0x07]))] := by decide

/-- E-4. -/
theorem test_encAssocReq : resultOf (exec (.encAssocReq 0x2b) (atEntry (.encAssocReq 0x2b) [])) =
    some (.ok, some (.bytes [0x23, 0xc8, 0x2b, 0x34, 0x12, 0x00, 0x00, 0xff, 0xff, 0x77, 0x66, 0x55, 0x44, 0x33, 0x22,
      0x11, 0x00, 0x01, 0x80])) := by decide

/-- E-6. -/
theorem test_encDataReq : resultOf (exec (.encDataReq 0x2c) (atEntry (.encDataReq 0x2c) [])) =
    some (.ok, some (.bytes [0x23, 0xc8, 0x2c, 0x34, 0x12, 0x00, 0x00, 0x34, 0x12, 0x77, 0x66, 0x55, 0x44, 0x33, 0x22,
      0x11, 0x00, 0x04])) := by decide

/-- E-8: the other value of `P_DATAREQ_PANID_COMPRESS`. -/
theorem test_encDataReq_compressed : encodeFrame (dataRequestRecord true 0x2c 0xabcd 0x0011223344556677 0x1234 0) =
    [0x63, 0xc8, 0x2c, 0x34, 0x12, 0x00, 0x00, 0x77, 0x66, 0x55, 0x44, 0x33, 0x22, 0x11, 0x00, 0x04] := by decide

/-- E-8, in the command itself: the parameter handed to the machine (rule R7). -/
theorem test_parameters_given :
    resultOf (execWith { Params.spec with dataReqCompress := true } (.encDataReq 0x2c)
      (atEntry (.encDataReq 0x2c) [])) =
    some (.ok, some (.bytes [0x63, 0xc8, 0x2c, 0x34, 0x12, 0x00, 0x00, 0x77, 0x66, 0x55, 0x44, 0x33, 0x22, 0x11, 0x00,
      0x04])) := by decide

/-- Rules R7, R162: with `P_CROSS_IDLE` `Ignore` a TXEN taken in RxIdle is dropped. -/
theorem test_parameters_step :
    (nextOf (stepWith { Params.spec with crossIdle := .ignore } { base with
      turns := [.radio (.takeTxen true)]
      rstate := .rxIdle
      pending := { txen := true, rxen := false, start := false } })).map (fun t => (t.rstate, t.pending.txen)) =
    some (.rxIdle, false) := by decide

/-- Rules R7, R12, R61: a 16-bit register keeps the low half of the word written, a 16-bit bus address is a sum modulo
two to the sixteenth; at 32 bits both are whole. -/
theorem test_parameters_widths :
    regRead .pcnf0 (regWrite .pcnf0 0x04000008 base { Params.spec with regWidth := 16 }) = 0x00000008 ∧
    regRead .pcnf0 (regWrite .pcnf0 0x04000008 base) = 0x04000008 ∧
    Reg.address .state { Params.spec with addrWidth := 16 } = 0x1550 ∧ Reg.address .state = 0x40001550 := by decide

/-- E-9, X-7: an unconstructed block encodes. -/
theorem test_encAck : resultOf (exec (.encAck 0x2b) { atEntry (.encAck 0x2b) [] with constructed := false }) =
    some (.ok, some (.bytes [0x02, 0x00, 0x2b])) := by decide

/-- The frame of M-OK-8, also P2's association response. -/
def assocResponse : MacFrame where
  frameType := .command
  security := false
  framePending := false
  ackRequest := true
  panIdCompress := true
  frameVersion := 0
  seq := 0x10
  dst := .extended 0x1234 0x0011223344556677
  src := .extended 0x1234 0x0123456789abcdef
  content := .associationResponse 0x5678 .successful
  payload := []

/-- M-OK-8's bytes. -/
def assocResponseBytes : Bytes :=
  [0x63, 0xcc, 0x10, 0x34, 0x12, 0x77, 0x66, 0x55, 0x44, 0x33, 0x22, 0x11, 0x00, 0xef, 0xcd, 0xab, 0x89, 0x67, 0x45,
   0x23, 0x01, 0x02, 0x78, 0x56, 0x00]

/-- M-OK-9: a data frame. -/
def dataFrame : MacFrame where
  frameType := .data
  security := false
  framePending := false
  ackRequest := false
  panIdCompress := true
  frameVersion := 0
  seq := 0x05
  dst := .short 0x1234 0x5678
  src := .short 0x1234 0x0000
  content := .dataContent
  payload := [0xaa, 0xbb]

/-- M-OK-8, M-OK-9, M-OK-3, M-OK-4. -/
theorem test_macDecode : resultOf (exec .macDecode (atEntry .macDecode assocResponseBytes)) =
      some (.ok, some (.mac assocResponse)) ∧
    decodeFrame [0x41, 0x88, 0x05, 0x34, 0x12, 0x78, 0x56, 0x00, 0x00, 0xaa, 0xbb] = some dataFrame ∧
    decodeFrame [0x02, 0x20, 0x01] = some { ackRecord 0x01 with frameVersion := 2 } ∧
    decodeFrame [0x82, 0x03, 0x2b] = some (ackRecord 0x2b) := by decide

/-- M-PE-1 to M-PE-14. -/
theorem test_macDecode_rejects : ([[], [0x02], [0x02, 0x00], [0x04, 0x00, 0x01], [0x0a, 0x00, 0x01],
      [0x03, 0x04, 0x01, 0xff, 0xff, 0xff, 0xff, 0x07], [0x02, 0x30, 0x01],
      [0x41, 0x80, 0x01, 0x34, 0x12, 0x00, 0x00], [0x03, 0x08, 0x01, 0xff, 0xff, 0xff, 0xff, 0x03],
      [0x03, 0x08, 0x01, 0xff, 0xff, 0xff, 0xff, 0x01], [0x03, 0x08, 0x01, 0xff, 0xff, 0xff, 0xff],
      assocResponseBytes.take 24 ++ [0x03], assocResponseBytes.take 24,
      [0x23, 0xc8, 0x2b, 0x34, 0x12, 0x00, 0x00, 0xff, 0xff, 0x77, 0x66, 0x55, 0x44, 0x33, 0x22]] : List Bytes).map
    decodeFrame = List.replicate 14 none := by decide

/-! ## MAC session -/

/-- A-1 to A-8. -/
theorem test_address_match :
    let s := fun (e : Bool) (a : Option Half) => { base with session := { base.session with extActive := e, assignedShort := a } }
    let m := fun (d : Addr) => { dataFrame with dst := d }
    addressedToMe (m .none) (s true (some 0x5678)) = false ∧
    addressedToMe (m (.short 0x1234 0x5678)) (s true none) = false ∧
    addressedToMe (m (.short 0x1234 0x5678)) (s false (some 0x5678)) = true ∧
    addressedToMe (m (.short 0x9999 0x5678)) (s false (some 0x5678)) = true ∧
    addressedToMe (m (.short 0xffff 0xffff)) (s true (some 0x5678)) = false ∧
    addressedToMe (m (.extended 0x1234 0x0011223344556677)) (s false none) = false ∧
    addressedToMe (m (.extended 0x1234 0x0011223344556677)) (s true none) = true ∧
    addressedToMe (m (.extended 0x1234 0x0123456789abcdef)) (s true none) = false := by decide

/-- K-1 to K-5. -/
theorem test_ack_match : ackMatches (some (ackRecord 0x2b)) 0x2b = true ∧
    ackMatches (some (ackRecord 0x2c)) 0x2b = false ∧ ackMatches (some { dataFrame with seq := 0x2b }) 0x2b = false ∧
    ackMatches (some (beaconRequestRecord 0x2b)) 0x2b = false ∧ ackMatches none 0x2b = false := by decide

/-- Program P1, line 3: what BROADCAST_BEACON hands to TransmitBlocking. -/
theorem test_broadcastBeacon : (runAfter (exec .broadcastBeacon (atEntry .broadcastBeacon []))).map
    (fun r => (r.line, r.frame.txOnAir, r.frame.txBytes)) =
    some (.tx .check, 10, [0x03, 0x08, 0x2a, 0xff, 0xff, 0xff, 0xff, 0x07]) := by decide

/-- X-6. -/
theorem test_broadcastBeacon_unconstructed : haltOf (exec .broadcastBeacon
    { atEntry .broadcastBeacon [] with constructed := false }) = some .notConstructed := by decide

/-- P2's association response, received with its FCS, in a block whose extended address is active. -/
def responseReceived : State :=
  { busy (runOf .receiveOnce (.once .decode)
      { frameOf .receiveOnce [] with
        rxLen := 27
        rxBytes := assocResponseBytes ++ [0xc1, 0xc2]
        onceRet := .finish }) with
    session := { extActive := true, assignedShort := none, handshake := .dataReqAcked } }

/-- Q-4: the acknowledgement goes to TransmitBlocking. -/
theorem test_receiveOnce_acknowledges : (runAfter (exec .receiveOnce responseReceived)).map
    (fun r => (r.line, r.frame.txOnAir, r.frame.txBytes, r.frame.mac)) =
    some (.tx .check, 5, [0x02, 0x00, 0x10], some assocResponse) := by decide

/-- Q-4: the short address is recorded. -/
theorem test_receiveOnce_dispatches : (nextOf (exec .receiveOnce (busy (runOf .receiveOnce (.once .dispatch)
    { frameOf .receiveOnce [] with mac := some assocResponse, onceRet := .finish })))).map (·.session.assignedShort) =
    some (some 0x5678) := by decide

/-- W-5, W-6. -/
theorem test_writeExpectAck_length :
    let r := fun (n : Nat) => runOf (.writeExpectAck 0x2c) (.wait .check)
      { frameOf (.writeExpectAck 0x2c) [] with waitSeq := 0x2c, waitBytes := List.replicate n 0, waitRet := .finish }
    (runAfter (exec (.writeExpectAck 0x2c) (busy (r 253)))).map (fun q => q.frame.txOnAir) = some 255 ∧
    haltOf (exec (.writeExpectAck 0x2c) (busy (r 254))) = some .bufferOverflow := by decide +kernel

/-- W-2 and W-3: the thirtieth attempt, matching or not. -/
theorem test_writeExpectAck_attempts :
    let r := fun (m : Option MacFrame) => runOf (.writeExpectAck 0x2c) (.wait .tally)
      { frameOf (.writeExpectAck 0x2c) [] with waitSeq := 0x2c, k := 29, waitRet := .finish, mac := m }
    (runAfter (exec (.writeExpectAck 0x2c) (busy (r (some (ackRecord 0x2c)))))).map
      (fun q => (q.line, q.frame.k, q.frame.acked)) = some (.finish, 30, true) ∧
    (runAfter (exec (.writeExpectAck 0x2c) (busy (r none)))).map (fun q => (q.line, q.frame.k)) =
      some (.wait .loop, 30) := by decide

/-- Program P2, line 1. -/
theorem test_associate_request : (runAfter (exec .associate (busy (runOf .associate (.assoc .request)
    (frameOf .associate []))))).map (fun r => (r.frame.waitSeq, r.frame.waitBytes)) =
    some (0x2b, [0x23, 0xc8, 0x2b, 0x34, 0x12, 0x00, 0x00, 0xff, 0xff, 0x77, 0x66, 0x55, 0x44, 0x33, 0x22, 0x11, 0x00,
      0x01, 0x80]) := by decide

/-- Program P2, line 6. -/
theorem test_associate_data_request : (runAfter (exec .associate (busy (runOf .associate (.assoc .dataRequest)
    (frameOf .associate []))))).map (fun r => (r.frame.waitSeq, r.frame.waitBytes)) =
    some (0x2c, [0x23, 0xc8, 0x2c, 0x34, 0x12, 0x00, 0x00, 0x34, 0x12, 0x77, 0x66, 0x55, 0x44, 0x33, 0x22, 0x11, 0x00,
      0x04]) := by decide

/-! ## NWK codec -/

/-- F-1, F-2, F-4, F-6. -/
theorem test_nwkParseFcf : resultOf (exec (.nwkParseFcf 0x0208) (atEntry (.nwkParseFcf 0x0208) [])) =
      some (.ok, some (.fcf ⟨.nwkData, 2, .suppress, false, true, false, false, false, false⟩)) ∧
    parseFcf 0x1a09 = ⟨.nwkCommand, 2, .suppress, false, true, false, true, true, false⟩ ∧
    parseFcf 0xffff = ⟨.interPan, 15, .reserved3, true, true, true, true, true, true⟩ ∧
    parseFcf 0x00c2 = ⟨.nwkReserved, 0, .reserved3, false, false, false, false, false, false⟩ := by decide

/-- N-OK-1's bytes. -/
def securedPacket : Bytes :=
  [0x08, 0x02, 0xfc, 0xff, 0x00, 0x00, 0x1e, 0xa5, 0x28, 0x01, 0x00, 0x00, 0x00, 0x77, 0x66, 0x55, 0x44, 0x33, 0x22,
   0x11, 0x00, 0x00, 0xde, 0xad, 0x11, 0x22, 0x33, 0x44]

/-- N-OK-1's security header. -/
def securedHeader : SecurityHeader where
  keyIdentifier := .keyNetwork
  extendedNonce := true
  usingEncryption := true
  micLength := 4
  frameCounter := 1
  extendedSource := some 0x0011223344556677
  keySequence := 0
  mic := [0x11, 0x22, 0x33, 0x44]

/-- N-OK-1's result. -/
def securedFrame : NwkFrame where
  fcf := ⟨.nwkData, 2, .suppress, false, true, false, false, false, false⟩
  dst := 0xfffc
  src := 0x0000
  radius := 0x1e
  seq := 0xa5
  extDst := none
  extSrc := none
  multicastControl := none
  securityHeader := some securedHeader
  payload := [0xde, 0xad]

/-- N-OK-9: source route, then a security header without the extended nonce. -/
def routedPacket : Bytes :=
  [0x08, 0x06, 0x00, 0x00, 0x01, 0x00, 0x1e, 0x01, 0x01, 0x00, 0x42, 0x0f, 0x05, 0x00, 0x00, 0x00, 0x03, 0xaa, 0x11,
   0x22, 0x33, 0x44]

/-- N-OK-1, N-OK-9, N-OK-4, N-OK-5. -/
theorem test_nwkParsePacket : resultOf (exec .nwkParsePacket (atEntry .nwkParsePacket securedPacket)) =
      some (.ok, some (.nwk securedFrame)) ∧
    (parsePacket routedPacket).map (fun f => (f.securityHeader.map (fun h => (h.frameCounter, h.keySequence, h.mic)),
      f.payload)) = some (some (5, 3, [0x11, 0x22, 0x33, 0x44]), [0xaa]) ∧
    (parsePacket [0x08, 0x18, 0x00, 0x00, 0x01, 0x00, 0x0a, 0x02, 0x77, 0x66, 0x55, 0x44, 0x33, 0x22, 0x11, 0x00, 0xef,
      0xcd, 0xab, 0x89, 0x67, 0x45, 0x23, 0x01, 0xee]).map (fun f => (f.extDst, f.extSrc, f.payload)) =
      some (some 0x0011223344556677, some 0x0123456789abcdef, [0xee]) ∧
    (parsePacket [0x08, 0x01, 0xff, 0xff, 0x01, 0x00, 0x1e, 0x03, 0x5a, 0x99]).map
      (fun f => (f.multicastControl, f.payload)) = some (some 0x5a, [0x99]) := by decide

/-- N-PE-1 to N-PE-6. -/
theorem test_nwkParsePacket_rejects : ([[0x08, 0x00, 0x00, 0x00, 0x78, 0x56, 0x1e], [],
      [0x08, 0x04, 0xfc, 0xff, 0x00, 0x00, 0x1e, 0x01, 0x03, 0x00, 0x11, 0x22],
      [0x08, 0x18, 0x00, 0x00, 0x01, 0x00, 0x0a, 0x02, 0x77, 0x66, 0x55, 0x44, 0x33, 0x22, 0x11, 0x00, 0xef, 0xcd, 0xab,
        0x89, 0x67, 0x45, 0x23],
      [0x08, 0x02, 0x00, 0x00, 0x01, 0x00, 0x1e, 0x01, 0x08, 0x05, 0x00, 0x00, 0x00, 0x03, 0x22, 0x33, 0x44],
      [0x08, 0x02, 0x00, 0x00, 0x01, 0x00, 0x1e, 0x01, 0x08, 0x05, 0x00, 0x00]] : List Bytes).map parsePacket =
    List.replicate 6 none := by decide

/-- H-2, H-3, H-5. -/
theorem test_nwkParseSechdr : resultOf (exec (.nwkParseSechdr 8) (atEntry (.nwkParseSechdr 8) securedPacket)) =
      some (.ok, some (.securityHeader securedHeader 22)) ∧
    (parseSecHdrAt [0x00, 0x01, 0x02, 0x03, 0x04, 0x05] 0).map (fun h => (h.1.frameCounter, h.1.mic, h.2)) =
      some (0x04030201, [0x02, 0x03, 0x04, 0x05], 6) ∧
    (parseSecHdrAt [0xaa, 0x18, 0xff, 0xff, 0xff, 0xff, 0x09, 0xbb] 1).map
      (fun h => (h.1.keyIdentifier, h.1.keySequence, h.2)) = some (.keyLoad, 9, 7) := by decide

/-- H-6, H-7, H-8. -/
theorem test_nwkParseSechdr_rejects : resultOf (exec (.nwkParseSechdr 7)
      (atEntry (.nwkParseSechdr 7) [0x00, 0x01, 0x02, 0x03, 0x04, 0x05])) = some (.parseError, none) ∧
    parseSecHdrAt [0x00, 0x01, 0x02, 0x03, 0x04, 0x05] 6 = none ∧
    parseSecHdrAt [0x28, 0x01, 0x00, 0x00, 0x00, 0x77, 0x66, 0x55] 0 = none := by decide

/-- X-9: a halted block ignores a command word. -/
theorem test_halted_ignores : nextOf (step { issue 0x00002b13 with halted := some .notConstructed }) =
    some { base with halted := some .notConstructed } := by decide

/-! ## Witnesses -/

/-- Every line of every command is a position of some running block, with any local values. -/
theorem runs_busy (i : Instr) (l : Line) (f : Frame) : runs (busy (runOf i l f)) (runOf i l f) l := ⟨rfl, rfl, rfl⟩

theorem witness_CommandWordRoundTrip : Instr.wf (.configure 65535) = true ∧ Instr.wf (.nwkParseSechdr 65535) = true ∧
    Instr.wf .associate = true := by decide

theorem witness_DecodedCommandReencodes : decode 0xffffff02 = .command (.configure 65535) ∧
    decode 0xffffff03 = .command (.transmit 255) ∧ decode 0xffffff23 = .command .associate := by decide

theorem witness_IllegalOpcodeHalts :
    (∀ c ∈ ([0x00, 0x05, 0x0f, 0x15, 0x1f, 0x24, 0x2f, 0x33, 0xff] : List Byte), illegalOpc c) ∧
    (∀ c ∈ ([0x01, 0x04, 0x10, 0x14, 0x20, 0x23, 0x30, 0x32] : List Byte), ¬ illegalOpc c) ∧
    ready (issue 0x12345615) ∧ (issue 0x12345615).hostQ = [.cmd 0x12345615] ∧
    (issue 0x12345615).turns = [.host] ∧ illegalOpc (opcField 0x12345615) := by
  unfold illegalOpc
  exact ⟨by decide, by decide, ⟨rfl, rfl⟩, rfl, rfl, by decide⟩

theorem witness_StepRunsTheDecodedCommand :
    (let s := { atEntry .receive [] with turns := [.controller] }
     s.halted = none ∧ s.seqr = .running (runOf .receive .entry (frameOf .receive [])) ∧
     decode (frameOf .receive []).ops.cmd = .command .receive ∧ s.turns = .controller :: []) ∧
    ((atEntry .receive []).turns = [] ∧ promptTurn (atEntry .receive []) = .controller) ∧
    (ready (issue 0x00000004) ∧ (issue 0x00000004).hostQ = .cmd 0x00000004 :: [] ∧
     (issue 0x00000004).turns = .host :: [] ∧ decode 0x00000004 = .command .receive) :=
  ⟨by decide, by decide, ⟨rfl, rfl⟩, by decide⟩

theorem witness_EveryCommandStarts : ready base := ⟨rfl, rfl⟩

theorem witness_CmdWriteIgnoredUnlessReady :
    (let s := { atEntry .receive [] with hostQ := [.cmd 1], turns := [.host] }
     ¬ ready s ∧ s.hostQ = .cmd 1 :: [] ∧ s.turns = .host :: []) ∧
    (let s := { issue 1 with halted := some .notConstructed }
     ¬ ready s ∧ s.hostQ = .cmd 1 :: [] ∧ s.turns = .host :: []) :=
  ⟨⟨fun h => (nomatch h.2), rfl, rfl⟩, ⟨fun h => (nomatch h.1), rfl, rfl⟩⟩

theorem witness_SampledOperandsStayFixed : ∃ s t r r', step s = .next t ∧ s.seqr = .running r ∧
    t.seqr = .running r' :=
  ⟨{ atEntry (.transmit 5) [1] with hostQ := [.inp [2]], turns := [.host] }, _, _, _, rfl, rfl, rfl⟩

theorem witness_HostWritesItsRegisterOnly :
    let s := { atEntry .receive [] with hostQ := [.inp [2]], turns := [.host] }
    s.hostQ = .inp [2] :: [] ∧ s.turns = .host :: [] ∧ ∀ w, HostWrite.inp [2] ≠ .cmd w :=
  ⟨rfl, rfl, fun _ h => nomatch h⟩

theorem witness_IdleBlockWaits :
    (let s := { base with turns := [.controller] }
     s.seqr = .idle ∧ s.turns = .controller :: []) ∧
    (let s := { base with hostQ := [.ext 5], turns := [.host] }
     (∃ t, step s = .next t) ∧ s.seqr = .idle ∧ ¬ ((nextTurn s).1 = .host ∧ ∃ w q, s.hostQ = .cmd w :: q)) ∧
    (let s := { issue 0x00000004 with turns := [.radio .rampUp], rstate := .txRampUp }
     (∃ t, step s = .next t) ∧ s.seqr = .idle ∧ ¬ ((nextTurn s).1 = .host ∧ ∃ w q, s.hostQ = .cmd w :: q)) :=
  ⟨⟨rfl, rfl⟩, ⟨⟨_, rfl⟩, rfl, fun h => h.2.elim fun _ h => h.elim fun _ h => nomatch h⟩, ⟨_, rfl⟩, rfl,
    fun h => nomatch h.1⟩

/-- A state with one turn listed, in a radio state, with tasks pending. -/
def turnOf (m : RadioMove) (r : RadioState) (p : Pending) : State :=
  { base with turns := [.radio m], rstate := r, pending := p }

theorem witness_EnableTasksTaken : ∀ r ∈ [RadioState.disabled, .rxIdle, .txIdle, .tx], ∀ c ∈ [true, false],
    ∀ b ∈ [true, false],
    (turnOf (.takeTxen c) r ⟨b, false, false⟩).turns = .radio (.takeTxen c) :: [] ∧
    (turnOf (.takeTxen c) r ⟨b, false, false⟩).pending.txen = b ∧
    (turnOf (.takeRxen c) r ⟨false, b, false⟩).turns = .radio (.takeRxen c) :: [] ∧
    (turnOf (.takeRxen c) r ⟨false, b, false⟩).pending.rxen = b := by decide

theorem witness_RampUpEnds : ∀ r ∈ [RadioState.txRampUp, .rxRampUp, .disabled, .txIdle],
    (turnOf .rampUp r ⟨false, false, false⟩).turns = .radio .rampUp :: [] ∧
    (turnOf .rampUp r ⟨false, false, false⟩).rstate = r := by decide

theorem witness_StartTaken : ∀ r ∈ [RadioState.txIdle, .rxIdle, .disabled], ∀ b ∈ [true, false],
    (turnOf .takeStart r ⟨false, false, b⟩).turns = .radio .takeStart :: [] ∧
    (turnOf .takeStart r ⟨false, false, b⟩).pending.start = b ∧
    (turnOf .takeStart r ⟨false, false, b⟩).rstate = r := by decide

theorem witness_TransmissionEnds : (∀ c ∈ [true, false],
    let s := { turnOf .txEnd .tx ⟨false, false, false⟩ with airConf := c, txLen := 5, txDirty := [2] }
    s.turns = .radio .txEnd :: [] ∧ s.rstate = .tx ∧ s.airConf = c ∧ (1 + 0) ∉ s.txDirty) ∧
    (turnOf .txEnd .txIdle ⟨false, false, false⟩).turns = .radio .txEnd :: [] ∧
    (turnOf .txEnd .txIdle ⟨false, false, false⟩).rstate ≠ .tx := by decide

/-- A turn for a reception's end, in a radio state, with a frame of so many bytes waiting. -/
def receptionTurn (r : RadioState) (n : Nat) : State :=
  { turnOf .rxEnd r ⟨false, false, false⟩ with airConf := true, airIn := [airFrame (List.replicate n 7)] }

theorem witness_ReceptionEnds : ∀ n ∈ [0, 255],
    let s := receptionTurn .rx n
    s.turns = .radio .rxEnd :: [] ∧ s.rstate = .rx ∧ s.airIn = airFrame (List.replicate n 7) :: [] ∧
    (airFrame (List.replicate n 7)).bytes.length ≤ 255 ∧ s.airConf = true ∧ airConfigured s.radio = true := by
  decide +kernel

theorem witness_ReceptionEnds_not_enabled :
    ((receptionTurn .rxIdle 5).turns = .radio .rxEnd :: [] ∧ (receptionTurn .rxIdle 5).rstate ≠ .rx) ∧
    ((turnOf .rxEnd .rx ⟨false, false, false⟩).turns = .radio .rxEnd :: [] ∧
      (turnOf .rxEnd .rx ⟨false, false, false⟩).airIn = []) ∧
    (receptionTurn .rx 256).turns = .radio .rxEnd :: [] ∧
    ∃ f rest, (receptionTurn .rx 256).airIn = f :: rest ∧ 255 < f.bytes.length :=
  ⟨⟨rfl, by decide⟩, ⟨rfl, rfl⟩, rfl, _, _, rfl, by decide +kernel⟩

theorem witness_RadioNeverDisabledAgain : ∀ r ∈ [RadioState.disabled, .rxDisable, .txDisable],
    ∃ t, step { base with rstate := r, turns := [.host] } = .next t ∧ t.rstate = r :=
  fun _ _ => ⟨_, rfl, rfl⟩

theorem witness_ShortcutsStayOff : ∃ t, step (busy (runOf .receive (.rx .shorts) (frameOf .receive []))) = .next t ∧
    (busy (runOf .receive (.rx .shorts) (frameOf .receive []))).radio.shorts = 0 := ⟨_, rfl, rfl⟩

theorem witness_IdentityWordsNeverChange : Reg.frequency ≠ .packetPtr ∧ Reg.eventsEnd ≠ .eventsReady ∧
    ∃ t, step (atEntry .receive []) = .next t := ⟨by decide, by decide, _, rfl⟩

theorem witness_TransmitBlockingLines :
    (∀ i ∈ [Instr.transmit 5, .broadcastBeacon, .receiveOnce, .writeExpectAck 1, .associate], callsTransmit i = true) ∧
    (∀ i l f, runs (busy (runOf i (.tx l) f)) (runOf i (.tx l) f) (.tx l)) ∧
    (List.replicate 255 (0 : Byte)).length ≤ 255 :=
  ⟨by decide, fun _ _ _ => runs_busy _ _ _, by decide +kernel⟩

theorem witness_ReceiveBlockingLines :
    (∀ i ∈ [Instr.receive, .receiveOnce, .writeExpectAck 1, .associate], callsReceive i = true) ∧
    (∀ i l f, runs (busy (runOf i (.rx l) f)) (runOf i (.rx l) f) (.rx l)) :=
  ⟨by decide, fun _ _ _ => runs_busy _ _ _⟩

theorem witness_ConstructCompletes :
    (ready { base with constructed := false } ∧ { base with constructed := false }.constructed = false) ∧
    (runs { atEntry .construct [] with constructed := false }
      (runOf .construct .entry (frameOf .construct [])) .entry ∧
      { atEntry .construct [] with constructed := false }.constructed = false) ∧
    ∀ l f, runs (busy (runOf .construct (.construct l) f)) (runOf .construct (.construct l) f) (.construct l) :=
  ⟨⟨⟨rfl, rfl⟩, rfl⟩, ⟨⟨rfl, rfl, rfl⟩, rfl⟩, fun _ _ => runs_busy _ _ _⟩

theorem witness_ConfigureCompletes :
    (ready base ∧ base.constructed = true ∧ ∀ f ∈ [2360, 2399, 2400, 2500], 2360 ≤ f ∧ f ≤ 2500) ∧
    (runs (atEntry (.configure 2405) []) (runOf (.configure 2405) .entry (frameOf (.configure 2405) [])) .entry ∧
      (atEntry (.configure 2405) []).constructed = true) ∧
    ∀ n l f, runs (busy (runOf (.configure n) (.configure l) f)) (runOf (.configure n) (.configure l) f)
      (.configure l) :=
  ⟨⟨⟨rfl, rfl⟩, rfl, by decide⟩, ⟨runs_busy _ _ _, rfl⟩, fun _ _ _ => runs_busy _ _ _⟩

theorem witness_ConfigureOutOfRange : ready base ∧ base.constructed = true ∧
    ∀ f ∈ [0, 2359, 2501, 65535], f < 2360 ∨ 2500 < f := ⟨⟨rfl, rfl⟩, rfl, by decide⟩

theorem witness_FrequencyEncoding : ∀ f ∈ [2360, 2399, 2400, 2500], freqValid f = true := by decide

theorem witness_ConstructionTests :
    (testsConstructed (.configure 2405) = true ∧
      runs { atEntry (.configure 2405) [] with constructed := false }
        (runOf (.configure 2405) .entry (frameOf (.configure 2405) [])) .entry ∧
      { atEntry (.configure 2405) [] with constructed := false }.constructed = false) ∧
    (testsConstructed (.encAck 1) = false ∧ Instr.encAck 1 ≠ .construct ∧
      runs (atEntry (.encAck 1) []) (runOf (.encAck 1) .entry (frameOf (.encAck 1) [])) .entry) ∧
    (runs (atEntry .construct []) (runOf .construct .entry (frameOf .construct [])) .entry ∧
      (atEntry .construct []).constructed = true) :=
  ⟨⟨rfl, ⟨rfl, rfl, rfl⟩, rfl⟩, ⟨rfl, by decide, runs_busy _ _ _⟩, runs_busy _ _ _, rfl⟩

theorem witness_RadioCommandsEnter : runs (atEntry .receive []) (runOf .receive .entry (frameOf .receive [])) .entry ∧
    (atEntry .receive []).constructed = true := ⟨runs_busy _ _ _, rfl⟩

theorem witness_CommandsEnd :
    (∀ m a, let f := { frameOf .receiveOnce [] with mac := m, acked := a }
      runs (busy (runOf .receiveOnce .finish f)) (runOf .receiveOnce .finish f) .finish ∧ f.mac = m ∧ f.acked = a) ∧
    (let f := frameOf (.writeExpectAck 1) []
     runs (busy (runOf (.writeExpectAck 1) .raiseTimeout f)) (runOf (.writeExpectAck 1) .raiseTimeout f)
       .raiseTimeout) :=
  ⟨fun _ _ => ⟨runs_busy _ _ _, rfl, rfl⟩, runs_busy _ _ _⟩

theorem witness_TransmitReachesTheAir : ∀ n ∈ [0, 255],
    let s := { issuePrompt 0x00050003 .txIdle [] with host := operands .receive (List.replicate n 7) }
    ready s ∧ s.constructed = true ∧ hostIssues s 0x00050003 [] ∧ decode 0x00050003 = .command (.transmit 5) ∧
    radioRests s .txIdle ∧ airConfigured s.radio = true ∧ s.host.inp.length ≤ 255 := by
  unfold ready hostIssues radioRests
  decide +kernel

theorem witness_ReceiveReturnsTheAirsFrame : ∀ n ∈ [0, 255],
    let f := airFrame (List.replicate n 7)
    let s := issuePrompt 0x00000004 .rxIdle [f]
    ready s ∧ s.constructed = true ∧ hostIssues s 0x00000004 [] ∧ decode 0x00000004 = .command .receive ∧
    radioRests s .rxIdle ∧ airConfigured s.radio = true ∧ s.airIn = f :: [] ∧ f.bytes.length ≤ 255 := by
  unfold ready hostIssues radioRests
  decide +kernel

theorem witness_BroadcastBeaconReachesTheAir :
    let s := issuePrompt 0x00000020 .disabled []
    ready s ∧ s.constructed = true ∧ hostIssues s 0x00000020 [] ∧ decode 0x00000020 = .command .broadcastBeacon ∧
    radioRests s .disabled ∧ airConfigured s.radio = true := by
  unfold ready hostIssues radioRests
  decide

theorem witness_StartEarlyExit :
    (let r := runOf (.transmit 5) (.tx .pollDone) { frameOf (.transmit 5) [] with txRet := .finish }
     let s := { busy r with pending := ⟨false, false, true⟩, rstate := .txIdle }
     s.pending.start = true ∧ callsTransmit (.transmit 5) = true ∧ runs s r (.tx .pollDone) ∧ s.rstate = .txIdle) ∧
    (let r := runOf .receive (.rx .pollDone) (frameOf .receive [])
     let s := { busy r with pending := ⟨false, false, true⟩, rstate := .rxIdle }
     s.pending.start = true ∧ callsReceive .receive = true ∧ runs s r (.rx .pollDone) ∧ s.rstate = .rxIdle) :=
  ⟨⟨rfl, rfl, ⟨rfl, rfl, rfl⟩, rfl⟩, rfl, rfl, ⟨rfl, rfl, rfl⟩, rfl⟩

theorem witness_EncodersPostTheirBytes :
    runs (atEntry (.encAck 1) []) (runOf (.encAck 1) .entry (frameOf (.encAck 1) [])) .entry := runs_busy _ _ _

theorem witness_ParsersPostTheirResult :
    (∀ b, runs (atEntry .macDecode b) (runOf .macDecode .entry (frameOf .macDecode b)) .entry ∧
      (frameOf .macDecode b).ops.inp = b) ∧
    decodeFrame assocResponseBytes = some assocResponse ∧ decodeFrame [0x02, 0x00] = none ∧
    parsePacket securedPacket = some securedFrame ∧ parsePacket [] = none ∧
    (8 ≤ securedPacket.length ∧ parseSecHdr securedPacket 8 = some (securedHeader, 22)) ∧
    ((6 : Nat) ≤ ([0, 1, 2, 3, 4, 5] : Bytes).length ∧ parseSecHdr [0, 1, 2, 3, 4, 5] 6 = none) ∧
    ([0, 1, 2, 3, 4, 5] : Bytes).length < 7 :=
  ⟨fun _ => ⟨runs_busy _ _ _, rfl⟩, by decide⟩

theorem witness_MacDecodeOfEncode : decodable assocResponse ∧ decodable dataFrame ∧
    decodable (beaconRequestRecord 42) := by
  unfold decodable
  exact ⟨by decide, by decide, by decide⟩

theorem witness_MacEncodeOfDecode : decodeFrame assocResponseBytes = some assocResponse ∧
    assocResponseBytes = 0x63 :: 0xcc :: assocResponseBytes.drop 2 ∧ ((0xcc#8 ++ 0x63#8 : Half).extractLsb' 7 3 = 0) := by
  decide

/-- The second part: the frame controls of M-OK-4 and of its re-encoding, which differ in bits 9:7 alone. -/
theorem witness_MacDecodedIsDecodable : decodeFrame [0x01, 0x00, 0x09, 0xde, 0xad] =
    some ⟨.data, false, false, false, false, 0, 9, .none, .none, .dataContent, [0xde, 0xad]⟩ ∧
    ((0x03 : Byte) ++ (0x82 : Byte) : Half).extractLsb' 0 7 = ((0x00 : Byte) ++ (0x02 : Byte) : Half).extractLsb' 0 7 ∧
    ((0x03 : Byte) ++ (0x82 : Byte) : Half).extractLsb' 10 6 = ((0x00 : Byte) ++ (0x02 : Byte) : Half).extractLsb' 10 6 := by decide

/-- H-8, one byte short of an extended header, one byte short of a short one, and H-6. -/
theorem witness_SecurityHeaderParses :
    ([0x28, 0x01, 0x00, 0x00, 0x00, 0x77, 0x66, 0x55] : Bytes)[0]? = some 0x28 ∧ 8 - 0 < 14 ∧
    (List.replicate 13 0x28 : Bytes)[0]? = some 0x28 ∧ (0x28 : Byte).getLsbD 5 = true ∧ 13 - 0 < 14 ∧
    (List.replicate 5 0x08 : Bytes)[0]? = some 0x08 ∧ (0x08 : Byte).getLsbD 5 = false ∧ 5 - 0 < 6 ∧
    ([0x00, 0x01, 0x02, 0x03, 0x04, 0x05] : Bytes).length ≤ 6 := by decide

theorem witness_NwkFrameControlFields : (0xc208 : Half).extractLsb' 0 14 = (0x0208 : Half).extractLsb' 0 14 := by
  decide

theorem witness_SecuredPacketTail : parsePacket securedPacket = some securedFrame ∧
    securedFrame.securityHeader = some securedHeader := by decide

theorem witness_NwkOptionalFieldsFollowFlags :
    ([] : Bytes).length ≤ 255 ∧ (List.replicate 255 (7 : Byte)).length ≤ 255 ∧ (0x1d08 : Half).getLsbD 9 = false ∧
    (0x0208 : Half).getLsbD 9 = true ∧ ([0x11, 0x22, 0x33, 0x44] : Bytes).length = 4 ∧
    parsePacket securedPacket = some securedFrame ∧ securedFrame.securityHeader = some securedHeader := by
  decide +kernel

theorem witness_NwkLengthsAddUp :
    (parsePacket routedPacket).map (fun f => (f.fcf.sourceRoute, f.securityHeader.isSome)) = some (true, true) ∧
    (parsePacket [0x08, 0x00, 0x00, 0x00, 0x78, 0x56, 0x1e, 0x07]).isSome = true := by decide

theorem witness_ReceiveOnceLines :
    (∀ i ∈ [Instr.receiveOnce, .writeExpectAck 1, .associate], callsOnce i = true) ∧
    (∀ i l f, runs (busy (runOf i (.once l) f)) (runOf i (.once l) f) (.once l)) ∧
    decodeFrame ([0xff].take (1 - 2)) = none ∧
    decodeFrame ((assocResponseBytes ++ [0xc1, 0xc2]).take ((27 : Byte).toNat - 2)) = some assocResponse ∧
    addressedToMe assocResponse responseReceived = true ∧ assocResponse.ackRequest = true ∧
    decodeFrame [0x41, 0x88, 0x05, 0x34, 0x12, 0x78, 0x56, 0x00, 0x00, 0xaa, 0xbb] = some dataFrame ∧
    addressedToMe dataFrame base = false ∧
    addressedToMe dataFrame { base with session := { base.session with assignedShort := some 0x5678 } } = true ∧
    dataFrame.ackRequest = false ∧ parsePacket dataFrame.payload = none ∧
    parsePacket securedPacket = some securedFrame :=
  ⟨by decide, fun _ _ _ => runs_busy _ _ _, by decide⟩

theorem witness_AddressMatch : (ackRecord 1).dst = .none ∧ dataFrame.dst = .short 0x1234 0x5678 ∧
    assocResponse.dst = .extended 0x1234 0x0011223344556677 := by decide

theorem witness_ReceiveOnceAcknowledges :
    let f := airFrame (assocResponseBytes ++ [0xc1, 0xc2])
    let s := { issuePrompt 0x00000021 .rxIdle [f] with session := ⟨true, none, .dataReqAcked⟩ }
    ready s ∧ s.constructed = true ∧ hostIssues s 0x00000021 [] ∧ decode 0x00000021 = .command .receiveOnce ∧
    radioRests s .rxIdle ∧ airConfigured s.radio = true ∧ s.airIn = f :: [] ∧ f.bytes.length ≤ 255 ∧
    decodeFrame (f.bytes.take (f.bytes.length - 2)) = some assocResponse ∧ addressedToMe assocResponse s = true ∧
    assocResponse.ackRequest = true ∧ assocResponse.frameType ≠ .data := by
  unfold ready hostIssues radioRests
  decide

theorem witness_WaitLines :
    (∀ i ∈ [Instr.writeExpectAck 1, .associate], callsWait i = true) ∧
    (∀ i l f, runs (busy (runOf i (.wait l) f)) (runOf i (.wait l) f) (.wait l)) ∧
    (List.replicate 253 (0 : Byte)).length ≤ 253 ∧ 253 < (List.replicate 254 (0 : Byte)).length ∧
    (29 : Nat) < 30 ∧ (30 : Nat) ≤ 30 ∧ (ackRecord 0x2c).frameType = .ack ∧ (ackRecord 0x2c).seq = 0x2c ∧
    (ackRecord 0x2b).seq ≠ 0x2c :=
  ⟨by decide, fun _ _ _ => runs_busy _ _ _, by decide +kernel⟩

/-- P3's wait at its first attempt. -/
def waiting : Frame :=
  { frameOf (.writeExpectAck 0x2c) [] with
    waitSeq := 0x2c
    waitBytes := [0x23]
    waitRet := .finish }

theorem witness_WaitTimesOutAfterThirtyAttempts :
    let f := airFrame [0x02, 0x00, 0x2b, 0xf1, 0xf2]
    let r := runOf (.writeExpectAck 0x2c) (.wait .loop) waiting
    let s := { busy r with rstate := .rxIdle, airIn := List.replicate 30 f }
    runs s r (.wait .loop) ∧ r.frame.k = 0 ∧ r.frame.waitRet = .finish ∧ r.frame.waitSeq = 0x2c ∧
    decode r.frame.ops.cmd = .command (.writeExpectAck 0x2c) ∧ s.turns = [] ∧ radioRests s .rxIdle ∧
    airConfigured s.radio = true ∧ s.airIn = List.replicate 30 f ++ [] ∧ (List.replicate 30 f).length = 30 ∧
    ∀ g ∈ List.replicate 30 f, failsQuietly s 0x2c g := by
  refine ⟨⟨rfl, rfl, rfl⟩, rfl, rfl, rfl, by decide, rfl, ⟨rfl, rfl⟩, by decide, rfl, rfl, fun g hg => ?_⟩
  rw [List.eq_of_mem_replicate hg]
  exact ⟨by decide, ackRecord 0x2b, by decide⟩

theorem witness_WriteExpectAckCompletes : ∀ k ∈ [0, 253],
    let f := airFrame [0x02, 0x00, 0x2c, 0xf1, 0xf2]
    let s := { issuePrompt 0x00002c22 .rxIdle [f] with host := operands .receive (List.replicate k 7) }
    ready s ∧ s.constructed = true ∧ hostIssues s 0x00002c22 [] ∧
    decode 0x00002c22 = .command (.writeExpectAck 0x2c) ∧ radioRests s .rxIdle ∧ airConfigured s.radio = true ∧
    s.host.inp.length ≤ 253 ∧ s.airIn = f :: [] ∧ acknowledges f 0x2c := by
  intro k hk
  refine ⟨⟨rfl, rfl⟩, rfl, ⟨rfl, rfl⟩, by decide, ⟨rfl, rfl⟩, ?_, ?_, rfl, by decide, ackRecord 0x2c, by decide⟩
  · exact (show airConfigured base.radio = true by decide)
  · revert k
    decide +kernel

theorem witness_AssociateLines :
    ∀ a l, let f := { frameOf .associate [] with acked := a }
      runs (busy (runOf .associate (.assoc l) f)) (runOf .associate (.assoc l) f) (.assoc l) ∧ f.acked = a :=
  fun _ _ => ⟨runs_busy _ _ _, rfl⟩

theorem witness_AssociateCompletes :
    let f := airFrame [0x02, 0x00, 0x2b, 0xf1, 0xf2]
    let g := airFrame [0x02, 0x00, 0x2c, 0xf3, 0xf4]
    let s := issuePrompt 0x00000023 .rxIdle [f, g]
    ready s ∧ s.constructed = true ∧ hostIssues s 0x00000023 [] ∧ decode 0x00000023 = .command .associate ∧
    radioRests s .rxIdle ∧ airConfigured s.radio = true ∧ s.airIn = f :: g :: [] ∧ acknowledges f 43 ∧
    acknowledges g 44 :=
  ⟨⟨rfl, rfl⟩, rfl, ⟨rfl, rfl⟩, by decide, ⟨rfl, rfl⟩, by decide, rfl,
    ⟨by decide, ackRecord 0x2b, by decide⟩, by decide, ackRecord 0x2c, by decide⟩

/-- TransmitBlocking at the store of its length byte, over a buffer that holds another. -/
def storing : State :=
  { busy (runOf (.transmit 5) (.tx .writeLen) { frameOf (.transmit 5) [] with txOnAir := 5, txRet := .finish }) with
    buf := [(0, 9), (255, 1)] }

theorem witness_BufferStaysCanonical : (∃ t, step storing = .next t) ∧ BufferOk storing :=
  ⟨⟨_, rfl⟩, by unfold BufferOk; decide⟩

theorem witness_SequencerStaysInItsProgram : (∃ t, step storing = .next t) ∧ seqrOk storing.seqr = true :=
  ⟨⟨_, rfl⟩, by decide⟩

theorem witness_EveryStepGoesOn : seqrOk storing.seqr = true ∧ seqrOk base.seqr = true := by decide

theorem witness_ResultRecordStaysTrue : (∃ t, step storing = .next t) ∧ ResOk storing :=
  ⟨⟨_, rfl⟩, base.session, rfl⟩

/-- A block that has programmed its radio. -/
def programmed (s : State) : State := { s with radio := { s.radio with packetPtr := Config.bufAddr, pcnf1 := 0x000000ff } }

theorem witness_ConstructedStaysProgrammed : (∃ t, step (programmed storing) = .next t) ∧
    seqrOk (programmed storing).seqr = true ∧ ProgrammedOk (programmed storing) ∧
    (programmed storing).constructed = true := by
  refine ⟨⟨_, rfl⟩, by decide, ⟨fun _ => ⟨rfl, rfl⟩, fun r h => ?_⟩, rfl⟩
  cases h
  exact ⟨fun h => (nomatch h), fun _ => ⟨rfl, rfl⟩⟩

/-- ASSOCIATE past its acknowledged association request. -/
def phaseTwo : State :=
  { busy (runOf .associate (.assoc .dataRequest) (frameOf .associate [])) with
    session := ⟨true, none, .assocAcked⟩ }

theorem witness_HandshakeNeedsActiveAddress : (∃ t, step phaseTwo = .next t) ∧ seqrOk phaseTwo.seqr = true ∧
    PhaseOk phaseTwo ∧ phaseTwo.session.handshake ≠ .noHandshake :=
  ⟨⟨_, rfl⟩, by decide, ⟨fun _ => rfl, fun _ _ _ => rfl⟩, by decide⟩

theorem witness_HaltIsPermanent :
    let s := { issue 0x00000001 with halted := some .notConstructed }
    ((∃ t, step s = .next t) ∧ s.halted ≠ none) ∧
    (let c := { atEntry (.transmit 5) [1] with halted := some .notConstructed, turns := [.controller] }
     c.halted ≠ none ∧ c.turns = .controller :: []) := ⟨⟨⟨_, rfl⟩, by decide⟩, by decide, rfl⟩

/-- ReceiveOnceProc at its dispatch of an association response addressed to the device. -/
def dispatchingResponse : State :=
  { busy (runOf .receiveOnce (.once .dispatch)
      { frameOf .receiveOnce [] with mac := some assocResponse, onceRet := .finish }) with
    session := ⟨true, none, .dataReqAcked⟩ }

theorem witness_LastingRegistersChangeOnlyWhere :
    (∃ t, step storing = .next t ∧ storing.constructed = true) ∧
    (∃ t, step { busy (runOf .construct (.construct .setConstructed) (frameOf .construct [])) with
        constructed := false } = .next t ∧ t.constructed ≠ false) ∧
    (seqrOk dispatchingResponse.seqr = true ∧ DispatchOk dispatchingResponse ∧
      ∃ t, step dispatchingResponse = .next t ∧
        t.session.assignedShort ≠ dispatchingResponse.session.assignedShort) ∧
    (∃ t, step { busy (runOf .construct (.construct .setExtended) { frameOf .construct [] with hi := 1 }) with
        constructed := false } = .next t ∧ t.ownExtended ≠ base.ownExtended) ∧
    (∃ t, step (busy (runOf .receiveOnce (.once .dispatch) { frameOf .receiveOnce [] with
        mac := some assocResponse })) = .next t ∧ t.session.assignedShort ≠ base.session.assignedShort) ∧
    (∃ t, step (busy (runOf .associate (.assoc .afterRequest) { frameOf .associate [] with acked := true })) = .next t ∧
      t.session.extActive ≠ base.session.extActive) ∧
    (∃ t, step (busy (runOf .associate (.assoc .setAcked) (frameOf .associate []))) = .next t ∧
      t.session.handshake ≠ base.session.handshake) :=
  ⟨⟨_, rfl, rfl⟩, ⟨_, rfl, by decide⟩,
    ⟨by decide, fun _ h _ => by cases h; exact ⟨assocResponse, rfl, by decide⟩, _, rfl, by decide⟩,
    ⟨_, rfl, by decide⟩, ⟨_, rfl, by decide⟩, ⟨_, rfl, by decide⟩, ⟨_, rfl, by decide⟩⟩

theorem witness_ControllerStepFrame : ∃ t, exec (.transmit 5) storing = .next t ∧
    t.buf.read 0 ≠ storing.buf.read 0 := ⟨_, rfl, by decide⟩

end Sys2Proof.Tests
end

section
/-! PROOFS. The state: what each agent's step keeps, from the register map to the sequencer's position, said once per
function and then used for each statement. -/

namespace Sys2Proof.Machine

/-! ## The host's steps and the start of a command -/

/-- Settles O5: a listed or a prompt turn of the controller is `exec`, and so is the host's write to a ready block. -/
theorem stepRunsTheDecodedCommand : Obligations.StepRunsTheDecodedCommand := by
  refine ⟨fun s r i ts hh hs hd ht => ?_, fun s r i hh hs hd ht hp => ?_, fun s w i q ts hr hq ht hd => ?_⟩
  · rw [step_listed ht]
    exact controllerStep_running (s := { s with turns := ts }) hh hs hd
  · rw [step_prompt ht, hp]
    exact controllerStep_running hh hs hd
  · obtain ⟨hh, hs⟩ := hr
    simp [step_listed ht, agentStep, hostStep, hq, hostWrite, writeCmd, hh, hs, hd, HostRegs.set]

/-- Settles O6: the start step, its run being `startedRun`. -/
theorem everyCommandStarts : Obligations.EveryCommandStarts :=
  fun i _ hr => exec_idle i hr.1 hr.2

/-- Settles O7: `writeCmd` passes on a block that is halted or busy. -/
theorem cmdWriteIgnoredUnlessReady : Obligations.CmdWriteIgnoredUnlessReady := by
  intro s w q ts hr hq ht
  simp only [step_listed ht, agentStep, hostStep, hq, hostWrite, writeCmd]
  split
  · rename_i hh hs
    exact absurd ⟨hh, hs⟩ hr
  · rfl

/-! ## Reset -/

/-- Settles O11: the reset table, register by register. -/
theorem resetValues : Obligations.ResetValues := by
  refine ⟨rfl, rfl, rfl, rfl, rfl, rfl, ?state, rfl, fun r hr => ?tasks, fun r hr => ?registers, rfl, rfl, fun _ => rfl⟩
  case state => simp [State.reset, State.resetWith, RadioState.code]
  case tasks => fin_cases hr <;> rfl
  case registers => fin_cases hr <;> rfl

/-- Settles O57: at reset nothing runs and nothing is constructed. -/
theorem resetIsSound : Obligations.ResetIsSound := by
  have idle : ∀ r, State.reset.seqr ≠ .running r := fun _ => nofun
  have noRes : ResOk State.reset := fun _ h => nomatch h
  have programmed : ProgrammedOk State.reset := ⟨fun h => (nomatch h), fun r hr => absurd hr (idle r)⟩
  have phase : PhaseOk State.reset := ⟨fun h => absurd rfl h, fun r hr => absurd hr (idle r)⟩
  exact ⟨⟨rfl, rfl⟩, rfl, noRes, programmed, phase, fun r hr => absurd hr (idle r), rfl⟩

/-! ## The register map -/

/-- A register that is read and written holds the word last written (rule R72). -/
theorem regRead_regWrite_same {r : Reg} (h : r.access = .readWrite) (v : Word) (s : State) :
    regRead r (regWrite r v s) = v := by
  cases r <;> try rfl
  all_goals cases h

/-- A write of a register that is no task changes nothing but the radio's registers. -/
theorem regWrite_frame {r : Reg} (h : r.access ≠ .task) (v : Word) (s : State) :
    { regWrite r v s with radio := s.radio } = s := by
  cases r <;> try rfl
  all_goals exact absurd rfl h

/-- A write of a register that is no task reaches no other register. -/
theorem regRead_regWrite_ne {r q : Reg} (h : r.access ≠ .task) (hq : q ≠ r) (v : Word) (s : State) :
    regRead q (regWrite r v s) = regRead q s := by
  cases r <;> try exact absurd rfl h
  all_goals cases q <;> try rfl
  all_goals exact absurd rfl hq

/-- A write of 0 to a task register does nothing (rule R34). -/
theorem regWrite_task_zero {r : Reg} (h : r.access = .task) (s : State) : regWrite r 0 s = s := by
  cases r <;> try rfl
  all_goals cases h

/-- A write of 0 clears an event register (rule R35). -/
theorem regRead_regWrite_event_zero {r : Reg} (h : r.access = .event) (s : State) :
    regRead r (regWrite r 0 s) = 0 := by
  cases r <;> try rfl
  all_goals cases h

/-- The registers whose word the host's configuration and the block's own lines set (rules R66, R72). -/
theorem access_of_mem_configuration {r : Reg}
    (h : r ∈ [Reg.shorts, .packetPtr, .frequency, .txPower, .mode, .pcnf0, .pcnf1, .base0, .base1, .prefix0, .prefix1,
      .txAddress, .rxAddresses, .crcCnf, .crcPoly, .crcInit, .tifs, .power]) : r.access = .readWrite := by
  fin_cases h <;> rfl

/-- The thirteen registers at the head of the map are the tasks (rule R33). -/
theorem access_of_mem_tasks {r : Reg} (h : r ∈ allRegs.take 13) : r.access = .task := by
  fin_cases h <;> rfl

/-- The event registers (rule R33). -/
theorem access_of_mem_events {r : Reg} (h : r ∈ [Reg.eventsReady, .eventsAddress, .eventsPayload, .eventsEnd]) :
    r.access = .event := by
  fin_cases h <;> rfl

/-! ## What a controller step leaves unchanged -/

/-- What no controller step touches: the host's registers and queue, the turns, the draws, the radio's state and latched
transmission, the identity words, the air, and most registers of the radio (rules R20, R33, R161). -/
structure ControllerFrame (s t : State) : Prop where
  host : t.host = s.host
  hostQ : t.hostQ = s.hostQ
  turns : t.turns = s.turns
  draws : t.draws = s.draws
  rstate : t.rstate = s.rstate
  txLen : t.txLen = s.txLen
  txImage : t.txImage = s.txImage
  airConf : t.airConf = s.airConf
  ficrHi : t.ficrHi = s.ficrHi
  ficrLo : t.ficrLo = s.ficrLo
  airIn : t.airIn = s.airIn
  airOut : t.airOut = s.airOut
  radio : { t.radio with
      shorts := s.radio.shorts
      packetPtr := s.radio.packetPtr
      pcnf1 := s.radio.pcnf1
      frequency := s.radio.frequency
      mode := s.radio.mode
      pcnf0 := s.radio.pcnf0
      crcCnf := s.radio.crcCnf
      crcPoly := s.radio.crcPoly } = s.radio
  tasks : { t.tasks with
      txen := s.tasks.txen
      rxen := s.tasks.rxen
      start := s.tasks.start
      writes := s.tasks.writes } = s.tasks

/-- The frame of a step that writes the block's own fields alone. -/
theorem ControllerFrame.of_own (s : State) (res : Option Res) (seqr : Seqr) (halted : Option HaltReason)
    (constructed : Bool) (ownExtended : Dword) (session : Session) (sink : List LogMsg) :
    ControllerFrame s { s with
      res := res
      seqr := seqr
      halted := halted
      constructed := constructed
      ownExtended := ownExtended
      session := session
      sink := sink } :=
  ⟨rfl, rfl, rfl, rfl, rfl, rfl, rfl, rfl, rfl, rfl, rfl, rfl, rfl, rfl⟩

/-- A line of CONSTRUCT touches nothing outside the frame. -/
theorem constructStep_frame (l : ConstructLine) (r : Run) (s : State) : ControllerFrame s (constructStep l r s) := by
  cases l <;> exact ⟨rfl, rfl, rfl, rfl, rfl, rfl, rfl, rfl, rfl, rfl, rfl, rfl, rfl, rfl⟩

/-- A line of CONFIGURE touches nothing outside the frame. -/
theorem configureStep_frame (f : Nat) (l : ConfigureLine) (r : Run) (s : State) :
    ControllerFrame s (configureStep f l r s) := by
  cases l with
  | rangeTest =>
    simp only [configureStep]
    split <;> exact .of_own s _ _ _ _ _ _ _
  | _ => exact ⟨rfl, rfl, rfl, rfl, rfl, rfl, rfl, rfl, rfl, rfl, rfl, rfl, rfl, rfl⟩

/-- A line of ASSOCIATE writes the block's own fields alone. -/
theorem assocStep_frame (l : AssocLine) (r : Run) (s : State) : ControllerFrame s (assocStep l r s) := by
  cases l with
  | afterRequest =>
    simp only [assocStep]
    split <;> exact .of_own s _ _ _ _ _ _ _
  | afterDataRequest =>
    simp only [assocStep]
    split <;> exact .of_own s _ _ _ _ _ _ _
  | _ => exact .of_own s _ _ _ _ _ _ _

/-- The dispatch line writes the block's own fields alone. -/
theorem onceDispatch_frame (r : Run) (s : State) : ControllerFrame s (onceDispatch r s) := by
  unfold onceDispatch dispatch
  (repeat' split) <;> exact .of_own s _ _ _ _ _ _ _

/-- Everything a command's step can be, the running command's lines being left to the lemmas about them. -/
theorem exec_cases {i : Instr} {s t : State} (he : exec i s = .next t) :
    t = s ∨ t = startCommand s ∨ ∃ r, s.halted = none ∧ s.seqr = .running r := by
  by_cases hh : s.halted = none
  · cases hs : s.seqr with
    | idle =>
      rw [exec_idle i hh hs] at he
      cases he
      exact .inr (.inl rfl)
    | running r => exact .inr (.inr ⟨r, hh, rfl⟩)
  · rw [exec_halted i hh] at he
    cases he
    exact .inl rfl

/-- A step of any command touches nothing outside the frame. -/
theorem exec_frame {i : Instr} {s t : State} (he : exec i s = .next t) : ControllerFrame s t := by
  obtain rfl | rfl | ⟨r, hh, hs⟩ := exec_cases he
  · exact .of_own t _ _ _ _ _ _ _
  · exact .of_own s _ _ _ _ _ _ _
  refine running_rec hh hs he (ControllerFrame s) (fun _ => .of_own s _ _ _ _ _ _ _)
    (fun _ => .of_own s _ _ _ _ _ _ _) (fun _ _ _ _ => .of_own s _ _ _ _ _ _ _)
    (fun _ _ _ => .of_own s _ _ _ _ _ _ _) (fun _ _ => .of_own s _ _ _ _ _ _ _) ?tx ?rx
    (fun l _ => constructStep_frame l r s) (fun f l _ => configureStep_frame f l r s)
    (fun l _ => assocStep_frame l r s) (fun _ => onceDispatch_frame r s)
  case tx =>
    intro l _ ht
    refine tx_rec ht (ControllerFrame s) (fun _ => .of_own s _ _ _ _ _ _ _) (fun _ _ _ => .of_own s _ _ _ _ _ _ _)
      (fun _ => ?_) (fun _ _ => ?_) ?_ ?_ ?_
    all_goals exact ⟨rfl, rfl, rfl, rfl, rfl, rfl, rfl, rfl, rfl, rfl, rfl, rfl, rfl, rfl⟩
  case rx =>
    intro l _ ht
    refine rx_rec ht (ControllerFrame s) (fun _ _ _ => .of_own s _ _ _ _ _ _ _) ?_ ?_ ?_
    all_goals exact ⟨rfl, rfl, rfl, rfl, rfl, rfl, rfl, rfl, rfl, rfl, rfl, rfl, rfl, rfl⟩

/-! ## The packet buffer -/

/-- No line of CONSTRUCT stores in the buffer. -/
@[simp] theorem constructStep_buf (l : ConstructLine) (r : Run) (s : State) : (constructStep l r s).buf = s.buf := by
  cases l <;> rfl

/-- No line of CONFIGURE stores in the buffer. -/
@[simp] theorem configureStep_buf (f : Nat) (l : ConfigureLine) (r : Run) (s : State) :
    (configureStep f l r s).buf = s.buf := by
  cases l with
  | rangeTest => simp only [configureStep]; split <;> rfl
  | _ => rfl

/-- No line of ASSOCIATE stores in the buffer. -/
@[simp] theorem assocStep_buf (l : AssocLine) (r : Run) (s : State) : (assocStep l r s).buf = s.buf := by
  cases l with
  | afterRequest => simp only [assocStep]; split <;> rfl
  | afterDataRequest => simp only [assocStep]; split <;> rfl
  | _ => rfl

/-- The dispatch line stores nothing in the buffer. -/
@[simp] theorem onceDispatch_buf (r : Run) (s : State) : (onceDispatch r s).buf = s.buf := by
  unfold onceDispatch dispatch
  (repeat' split) <;> rfl

/-- Where a controller step stores in the buffer: TransmitBlocking's length byte and its frame's bytes (rule R137). -/
def TransmitStores (s t : State) : Prop :=
  t.buf = s.buf ∨ ∃ r,
    (runs s r (.tx .writeLen) ∧ t.buf = Memory.writeBytes s.buf 0 [r.frame.txOnAir]) ∨
    (runs s r (.tx .writeBytes) ∧ 1 + r.frame.txBytes.length ≤ 256 ∧
      t.buf = Memory.writeBytes s.buf 1 r.frame.txBytes)

/-- A step of any command stores at TransmitBlocking's two lines only. -/
theorem exec_transmitStores {i : Instr} {s t : State} (he : exec i s = .next t) : TransmitStores s t := by
  obtain rfl | rfl | ⟨r, hh, hs⟩ := exec_cases he
  · exact .inl rfl
  · exact .inl rfl
  cases hl : r.line with
  | tx l =>
    refine tx_rec (exec_tx hh hs hl he) (TransmitStores s) (fun _ => .inl rfl) (fun _ _ _ => .inl rfl) ?len ?bytes
      (.inl rfl) (.inl rfl) (.inl rfl)
    case len =>
      rintro rfl
      exact .inr ⟨r, .inl ⟨⟨hh, hs, hl⟩, rfl⟩⟩
    case bytes =>
      rintro rfl ha
      exact .inr ⟨r, .inr ⟨⟨hh, hs, hl⟩, ha, rfl⟩⟩
  | _ =>
    refine .inl (running_rec hh hs he (fun t => t.buf = s.buf) (fun _ => rfl) (fun _ => rfl) (fun _ _ _ _ => rfl)
      (fun _ _ _ => rfl) (fun _ _ => rfl) (fun l h => ?_) (fun l _ ht => ?_) ?_ ?_ ?_ ?_)
    · simp [hl] at h
    · exact rx_rec ht (fun t => t.buf = s.buf) (fun _ _ _ => rfl) rfl rfl rfl
    all_goals simp

/-- A byte that a store of a byte string changes is one of its bytes, at its index. -/
theorem Memory.getElem?_of_read_writeBytes_ne {m : Memory} {a x : Nat} {bs : Bytes}
    (h : Memory.read (Memory.writeBytes m a bs) x ≠ Memory.read m x) :
    a ≤ x ∧ bs[x - a]? = some (Memory.read (Memory.writeBytes m a bs) x) := by
  have hlo : a ≤ x := Nat.le_of_not_lt fun hx => h (Memory.read_writeBytes_below m a bs x hx)
  have hhi : x - a < bs.length := by
    by_contra hx
    exact h (Memory.read_writeBytes_above m a bs x (by omega))
  have hread := Memory.read_writeBytes_at m a bs (x - a) hhi
  rw [show a + (x - a) = x by omega] at hread
  exact ⟨hlo, by rw [hread, List.getElem?_eq_getElem hhi]⟩

/-- Settles O60: `exec_frame`, and the bytes of TransmitBlocking's two stores. -/
theorem controllerStepFrame : Obligations.ControllerStepFrame := by
  intro i s t he
  obtain ⟨host, hostQ, turns, draws, rstate, txLen, txImage, airConf, ficrHi, ficrLo, airIn, airOut, radio, tasks⟩ :=
    exec_frame he
  refine ⟨host, hostQ, turns, draws, rstate, txLen, txImage, airConf, ficrHi, ficrLo, airIn, airOut, radio, tasks,
    fun a ha => ?_⟩
  obtain hbuf | ⟨r, ⟨hr, hbuf⟩ | ⟨hr, -, hbuf⟩⟩ := exec_transmitStores he
  · exact absurd (by rw [hbuf]) ha
  · rw [hbuf] at ha ⊢
    obtain ⟨-, hbyte⟩ := Memory.getElem?_of_read_writeBytes_ne ha
    obtain ⟨h0, hlen⟩ : a = 0 ∧ r.frame.txOnAir = _ := by simpa [List.getElem?_singleton] using hbyte
    exact ⟨r, .inl ⟨hr, h0, hlen.symm⟩⟩
  · rw [hbuf] at ha ⊢
    exact ⟨r, .inr ⟨hr, Memory.getElem?_of_read_writeBytes_ne ha⟩⟩

/-- A step of any command keeps the buffer's canonical form. -/
theorem exec_keeps_bufferOk {i : Instr} {s t : State} (he : exec i s = .next t) (hb : BufferOk s) : BufferOk t := by
  obtain ⟨hbuf, himage⟩ := hb
  refine ⟨?_, by rw [(exec_frame he).txImage]; exact himage⟩
  obtain h | ⟨r, ⟨-, h⟩ | ⟨-, hlen, h⟩⟩ := exec_transmitStores he
  · rw [h]
    exact hbuf
  · rw [h]
    exact Memory.wf_writeBytes _ _ _ hbuf (by simp [Config.bufCap])
  · rw [h]
    exact Memory.wf_writeBytes _ _ _ hbuf hlen

/-- What the DMA leaves in the buffer is canonical: a delivered frame and its length byte fit, and so do the free bytes
(rules R67, R167). -/
theorem rxBuffer_wf {described : Bool} {d : Nat} {m : Memory} {f : AirFrame} (hm : Memory.wf m = true)
    (hf : f.bytes.length ≤ Config.maxLen) : Memory.wf (rxBuffer described d m f) = true := by
  unfold rxBuffer
  split <;> refine Memory.wf_writeBytes _ _ _ hm ?_
  · simp only [Config.maxLen] at hf
    simp only [List.length_cons, Config.bufCap]
    omega
  · simp [freeBytes]

/-- A radio transition keeps the buffer's canonical form: the one that latches a transmission copies the buffer, the
one that ends a reception fills it. -/
theorem radioStep_keeps_bufferOk (m : RadioMove) {s : State} (hb : BufferOk s) : BufferOk (radioStep m s) := by
  obtain ⟨hbuf, himage⟩ := hb
  cases m with
  | takeStart =>
    simp only [radioStep, takeStart, acceptStart]
    split
    · split
      · exact ⟨hbuf, hbuf⟩
      · exact ⟨hbuf, himage⟩
      · exact ⟨hbuf, himage⟩
    · exact ⟨hbuf, himage⟩
  | rxEnd =>
    simp only [radioStep, rxEnd]
    split
    · split
      · exact ⟨rxBuffer_wf hbuf ‹_›, himage⟩
      · exact ⟨hbuf, himage⟩
    · exact ⟨hbuf, himage⟩
  | _ =>
    simp only [radioStep, takeTxen, takeRxen, rampUp, txEnd]
    (repeat' split) <;> exact ⟨hbuf, himage⟩

/-- Settles O51: the controller's two stores, the latch of a transmission and the end of a reception all keep it. -/
theorem bufferStaysCanonical : Obligations.BufferStaysCanonical := by
  intro s t h hb
  exact step_rec h BufferOk (fun _ _ => hb) (fun _ _ _ => hb) (fun _ _ _ _ _ _ _ => hb) (fun _ _ _ _ _ => hb)
    (fun _ _ _ _ _ _ he => exec_keeps_bufferOk he hb) (fun _ _ _ _ _ _ => hb)
    (fun _ m => radioStep_keeps_bufferOk m hb)

/-! ## SHORTS, the identity words and the halt -/

/-- A step of any command enables no shortcut: the one value it writes to SHORTS is 0 (rules R137, R138). -/
theorem exec_keeps_shorts_off {i : Instr} {s t : State} (he : exec i s = .next t) (h0 : s.radio.shorts = 0) :
    t.radio.shorts = 0 := by
  obtain rfl | rfl | ⟨r, hh, hs⟩ := exec_cases he
  · exact h0
  · exact h0
  refine running_rec hh hs he (fun t => t.radio.shorts = 0) (fun _ => h0) (fun _ => h0) (fun _ _ _ _ => h0)
    (fun _ _ _ => h0) (fun _ _ => h0)
    (fun l _ ht => tx_rec ht (fun t => t.radio.shorts = 0) (fun _ => h0) (fun _ _ _ => h0) (fun _ => h0)
      (fun _ _ => h0) rfl h0 h0)
    (fun l _ ht => rx_rec ht (fun t => t.radio.shorts = 0) (fun _ _ _ => h0) rfl h0 h0)
    (fun l _ => ?_) (fun f l _ => ?_) (fun l _ => ?_) (fun _ => ?_)
  · cases l <;> exact h0
  · cases l <;> simp only [configureStep] <;> (repeat' split) <;> exact h0
  · cases l <;> simp only [assocStep] <;> (repeat' split) <;> exact h0
  · unfold onceDispatch dispatch
    (repeat' split) <;> exact h0

/-- Settles O18: the controller writes nothing but 0 to SHORTS, and no other agent writes it. -/
theorem shortcutsStayOff : Obligations.ShortcutsStayOff := by
  intro s t h h0
  refine step_rec h (fun t => t.radio.shorts = 0) (fun _ _ => h0) (fun _ _ _ => h0) (fun _ _ _ _ _ _ _ => h0)
    (fun _ _ _ _ _ => h0) (fun _ _ _ _ _ _ he => exec_keeps_shorts_off he h0) (fun _ _ _ _ _ _ => h0)
    (fun _ m => ?_)
  obtain ⟨hshorts, -⟩ := radioStep_config m { s with turns := _ }
  exact hshorts.trans h0

/-- No step of any agent changes an identity word (rule R46). -/
theorem step_ficr {s t : State} (h : step s = .next t) : t.ficrHi = s.ficrHi ∧ t.ficrLo = s.ficrLo := by
  refine step_rec h (fun t => t.ficrHi = s.ficrHi ∧ t.ficrLo = s.ficrLo) (fun _ _ => ⟨rfl, rfl⟩)
    (fun _ _ _ => ⟨rfl, rfl⟩) (fun _ _ _ _ _ _ _ => ⟨rfl, rfl⟩) (fun _ _ _ _ _ => ⟨rfl, rfl⟩)
    (fun _ _ _ _ _ _ he => ⟨(exec_frame he).ficrHi, (exec_frame he).ficrLo⟩) (fun _ _ _ _ _ _ => ⟨rfl, rfl⟩)
    (fun ts m => ?_)
  obtain ⟨-, -, -, -, -, -, -, hhi, hlo, -⟩ := radioStep_frame m { s with turns := ts }
  exact ⟨hhi, hlo⟩

/-- Settles O19: the laws of each access class, at the registers of that class, and `step_ficr`. -/
theorem identityWordsNeverChange : Obligations.IdentityWordsNeverChange := by
  refine ⟨fun r => ?_, rfl, Reg.address_eq, fun r hr v s => ?_, fun r hr s => ?_, fun s => ⟨rfl, rfl, rfl⟩,
    fun r hr s => ?_, fun s => ?_, rfl, rfl, fun s => ⟨rfl, rfl⟩, fun s t => step_ficr⟩
  · cases r <;> decide
  · have hacc := access_of_mem_configuration hr
    have hne : r.access ≠ .task := by simp [hacc]
    exact ⟨regRead_regWrite_same hacc v s, fun q hq => regRead_regWrite_ne hne hq v s, regWrite_frame hne v s⟩
  · exact regWrite_task_zero (access_of_mem_tasks hr) s
  · have hacc := access_of_mem_events hr
    have hne : r.access ≠ .task := by simp [hacc]
    exact ⟨regRead_regWrite_event_zero hacc s, fun q hq => regRead_regWrite_ne hne hq 0 s, regWrite_frame hne 0 s⟩
  · rw [regRead_state]
    cases s.rstate <;> rfl

/-- Settles O58: a halted block starts no command and runs no line, and the radio touches nothing of the block's own. -/
theorem haltIsPermanent : Obligations.HaltIsPermanent := by
  refine ⟨fun s t h hh => ?_, fun s ts hh ht => ?_⟩
  · refine step_rec h (fun t => t.halted = s.halted ∧ t.res = s.res ∧ t.seqr = s.seqr ∧ t.session = s.session ∧
        t.constructed = s.constructed ∧ t.ownExtended = s.ownExtended ∧ t.sink = s.sink)
      (fun _ _ => ⟨rfl, rfl, rfl, rfl, rfl, rfl, rfl⟩) (fun _ _ _ => ⟨rfl, rfl, rfl, rfl, rfl, rfl, rfl⟩)
      (fun _ _ _ _ h0 => absurd h0 hh) (fun _ _ _ h0 => absurd h0 hh) (fun _ _ _ h0 => absurd h0 hh)
      (fun _ _ _ h0 => absurd h0 hh) (fun ts m => ?_)
    obtain ⟨-, hres, hseqr, hhalted, hcon, hown, hses, -, -, hsink, -⟩ := radioStep_frame m { s with turns := ts }
    exact ⟨hhalted, hres, hseqr, hses, hcon, hown, hsink⟩
  · rw [step_listed ht]
    cases hx : s.halted with
    | none => exact absurd hx hh
    | some x => simp [agentStep, controllerStep]

/-! ## The sequencer's position

What a line's step makes of the position of the running command (rules R22, R23), said once: the micro-program's
order, and how far the phase and the dispatch of a frame depend on the line before. -/

/-- A decoded command's opcode is the word's lowest byte (rules R82, R83). -/
theorem opcode_of_decode {w : Word} {i : Instr} (h : decode w = .command i) : w.extractLsb' 0 8 = i.opcode := by
  have hop : ∀ n, (opcField w).toNat = n → opcField w = BitVec.ofNat 8 n := fun n hn => by
    rw [← hn, BitVec.ofNat_toNat, BitVec.setWidth_eq]
  unfold decode at h
  split at h <;> cases h <;> exact hop _ ‹_›

/-- A running command is in its micro-program when its opcode is the word's and its position is one of its lines. -/
theorem seqrOk_running {r : Run} {i : Instr} (hd : decode r.frame.ops.cmd = .command i) :
    seqrOk (.running r) = true ↔ r.op = i.opcode ∧ runOk i r = true := by
  simp [seqrOk, hd]

/-- A command's start is in its micro-program. -/
theorem seqrOk_startedRun {h : HostRegs} {i : Instr} (hd : decode h.cmd = .command i) :
    seqrOk (.running (startedRun h)) = true := by
  have hops : (startedRun h).frame.ops = h := rfl
  refine (seqrOk_running (by rw [hops]; exact hd)).mpr ⟨opcode_of_decode hd, ?_⟩
  simp [runOk, startedRun, Frame.start]

/-! ### Where each procedure returns -/

/-- WriteAndExpectAckProc returns to a last line or to ASSOCIATE's line after it. -/
theorem waitOk_return {i : Instr} {f : Frame} (h : waitOk i f = true) :
    f.waitRet = .finish ∧ hasFinish i = true ∨
      i = .associate ∧ (f.waitRet = .assoc .afterRequest ∨ f.waitRet = .assoc .afterDataRequest) := by
  cases i <;> simp_all [waitOk, hasFinish]

/-- ReceiveOnceProc returns to RECEIVE_ONCE's last line or to the wait, an attempt being left. -/
theorem onceOk_return {i : Instr} {f : Frame} (h : onceOk i f = true) :
    f.onceRet = .finish ∧ i = .receiveOnce ∨
      f.onceRet = .wait .tally ∧ waitOk i f = true ∧ f.k < Config.ackAttempts := by
  cases i <;> simp_all [onceOk]

/-- TransmitBlocking returns to a last line, to the dispatch after an acknowledgement or to the wait. -/
theorem txOk_return {i : Instr} {f : Frame} (h : txOk i f = true) :
    f.txRet = .finish ∧ hasFinish i = true ∨ f.txRet = .once .dispatch ∧ onceOk i f = true ∨
      f.txRet = .wait .loop ∧ waitOk i f = true := by
  cases i <;> simp_all [txOk, hasFinish]

/-- ReceiveBlocking returns to RECEIVE's last line or to the decode line. -/
theorem rxOk_return {i : Instr} {f : Frame} (h : rxOk i f = true) :
    f.rxRet = .finish ∧ i = .receive ∨ f.rxRet = .once .decode ∧ onceOk i f = true := by
  cases i <;> simp_all [rxOk]

/-! ### What a call asks for -/

/-- A call of ReceiveOnceProc from the wait, an attempt being left. -/
theorem onceOk_of_waitOk {i : Instr} {f : Frame} (h : waitOk i f = true) (hk : f.k < Config.ackAttempts)
    (hr : f.onceRet = .wait .tally) : onceOk i f = true := by
  cases i <;> simp_all [onceOk, waitOk]

/-- A call of ReceiveBlocking from ReceiveOnceProc. -/
theorem rxOk_of_onceOk {i : Instr} {f : Frame} (h : onceOk i f = true) (hr : f.rxRet = .once .decode) :
    rxOk i f = true := by
  cases i <;> simp_all [rxOk, onceOk, waitOk]

/-- A call of TransmitBlocking from ReceiveOnceProc, for the acknowledgement. -/
theorem txOk_of_onceOk {i : Instr} {f : Frame} (h : onceOk i f = true) (hr : f.txRet = .once .dispatch) :
    txOk i f = true := by
  cases i <;> simp_all [txOk, onceOk, waitOk]

/-- A call of TransmitBlocking from the wait. -/
theorem txOk_of_waitOk {i : Instr} {f : Frame} (h : waitOk i f = true) (hr : f.txRet = .wait .loop) :
    txOk i f = true := by
  cases i <;> simp_all [txOk, waitOk]

/-! ### One line's step -/

/-- How the position `r'` after a line's step hangs together with the position `r` before it, in a state `s`. -/
structure Follows (i : Instr) (s : State) (r r' : Run) : Prop where
  op : r'.op = r.op
  ops : r'.frame.ops = r.frame.ops
  /-- The position is again one of the micro-program's. -/
  ok : runOk i r' = true
  /-- CONSTRUCT's lines are entered at the first. -/
  construct : ∀ l', r'.line = .construct l' → l' = .readHi ∨ ∃ l, r.line = .construct l
  /-- ASSOCIATE's second phase is entered with the acknowledged association request. -/
  phase : inPhaseTwo r' = true → inPhaseTwo r = true ∨ r.line = .assoc .afterRequest ∧ r.frame.acked = true
  /-- A frame comes to its dispatch from the decode line, which tests its address, or through the acknowledgement. -/
  dispatch : dispatching r' = true →
    (∃ l, r.line = .tx l) ∧ dispatching r = true ∧ r'.frame.mac = r.frame.mac ∨
    r.line = .once .decode ∧ ∃ m, r'.frame.mac = some m ∧ addressedToMe m s = true

/-- What a line's step makes of the sequencer: the block halts, the command ends, or it goes on in its micro-program. -/
def Continues (i : Instr) (s : State) (r : Run) (t : State) : Prop :=
  (∃ x, t = halt x s) ∨ t.seqr = .idle ∨ ∃ r', t.seqr = .running r' ∧ Follows i s r r'

/-- A step that goes on. -/
theorem Follows.continues {i : Instr} {s t : State} {r r' : Run} (ht : t.seqr = .running r') (hf : Follows i s r r') :
    Continues i s r t :=
  .inr (.inr ⟨r', ht, hf⟩)

section
variable {i : Instr} {s t : State} {r : Run} (hok : runOk i r = true)
include hok

/-- From one line of TransmitBlocking to another, the length test passed where the bytes are still to be stored. -/
theorem follows_tx {l l' : TxLine} (hl : r.line = .tx l) (hfits : txFits l' r.frame = true) (w : Word) :
    Follows i s r { r with line := .tx l', frame := { r.frame with stateRead := w } } where
  op := rfl
  ops := rfl
  ok := by
    have htx : txOk i r.frame = true := by simp_all [runOk]
    exact (Bool.and_eq_true _ _).mpr ⟨htx, hfits⟩
  construct := nofun
  phase := by simp [inPhaseTwo, hl]
  dispatch := by simp [dispatching, hl]

/-- From TransmitBlocking's last line to its caller. -/
theorem follows_txRet {l : TxLine} (hl : r.line = .tx l) : Follows i s r { r with line := r.frame.txRet } := by
  have htx : txOk i r.frame = true := by simp_all [runOk]
  obtain ⟨hret, hi⟩ | ⟨hret, hi⟩ | ⟨hret, hi⟩ := txOk_return htx <;> rw [hret]
  · exact ⟨rfl, rfl, hi, nofun, nofun, nofun⟩
  · exact ⟨rfl, rfl, hi, nofun, by simp [inPhaseTwo, hl], fun _ => .inl ⟨⟨l, hl⟩, by simp [dispatching, hl, hret], rfl⟩⟩
  · exact ⟨rfl, rfl, hi, nofun, by simp [inPhaseTwo, hl], nofun⟩

/-- A line of TransmitBlocking. -/
theorem txStep_continues {l : TxLine} (hl : r.line = .tx l) (ht : txStep l r s = .next t) : Continues i s r t := by
  have stay : ∀ l' w, txFits l' r.frame = true →
      Follows i s r { r with line := .tx l', frame := { r.frame with stateRead := w } } :=
    fun l' w hfits => follows_tx hok hl hfits w
  have hfits : txFits l r.frame = true := by simp_all [runOk]
  cases l <;> simp only [txStep, pollStep_eq] at ht
  case check =>
    split at ht <;> cases ht
    · exact .inl ⟨_, rfl⟩
    · exact (stay .writeLen r.frame.stateRead (decide_eq_true (Nat.le_of_not_lt ‹_›))).continues rfl
  case writeLen =>
    obtain ⟨-, ht⟩ := memWrite_next ht
    cases ht
    exact (stay .writeBytes r.frame.stateRead hfits).continues rfl
  case writeBytes =>
    obtain ⟨-, ht⟩ := memWrite_next ht
    cases ht
    exact (stay .shorts r.frame.stateRead rfl).continues rfl
  case shorts =>
    cases ht
    exact (stay .readState r.frame.stateRead rfl).continues rfl
  case readState =>
    cases ht
    exact (stay .enable _ rfl).continues rfl
  case enable =>
    split at ht <;> cases ht <;> exact (stay .pollReady r.frame.stateRead rfl).continues rfl
  case pollReady =>
    cases ht
    split
    · exact (stay .start r.frame.stateRead rfl).continues rfl
    · exact (stay .pollReady r.frame.stateRead rfl).continues (by rw [goto_seqr, hl])
  case start =>
    cases ht
    exact (stay .pollDone r.frame.stateRead rfl).continues rfl
  case pollDone =>
    cases ht
    split
    · exact (follows_txRet hok hl).continues rfl
    · exact (stay .pollDone r.frame.stateRead rfl).continues (by rw [goto_seqr, hl])

/-- From one line of ReceiveBlocking to another. -/
theorem follows_rx {l : RxLine} (hl : r.line = .rx l) (l' : RxLine) (w : Word) (n : Byte) :
    Follows i s r { r with line := .rx l', frame := { r.frame with stateRead := w, rxLen := n } } where
  op := rfl
  ops := rfl
  ok := by
    have hrx : rxOk i r.frame = true := by simp_all [runOk]
    exact hrx
  construct := nofun
  phase := by simp [inPhaseTwo, hl]
  dispatch := nofun

/-- From ReceiveBlocking's last line to its caller. -/
theorem follows_rxRet {l : RxLine} (hl : r.line = .rx l) (b : Bytes) :
    Follows i s r { r with line := r.frame.rxRet, frame := { r.frame with rxBytes := b } } := by
  have hrx : rxOk i r.frame = true := by simp_all [runOk]
  obtain ⟨hret, rfl⟩ | ⟨hret, hi⟩ := rxOk_return hrx <;> rw [hret]
  · exact ⟨rfl, rfl, rfl, nofun, nofun, nofun⟩
  · exact ⟨rfl, rfl, hi, nofun, by simp [inPhaseTwo, hl], nofun⟩

/-- A line of ReceiveBlocking. -/
theorem rxStep_continues {l : RxLine} (hl : r.line = .rx l) (ht : rxStep l r s = .next t) : Continues i s r t := by
  have stay : ∀ l' w n, Follows i s r { r with line := .rx l', frame := { r.frame with stateRead := w, rxLen := n } } :=
    fun l' w n => follows_rx hok hl l' w n
  cases l <;> simp only [rxStep, pollStep_eq] at ht
  case shorts =>
    cases ht
    exact (stay .readState r.frame.stateRead r.frame.rxLen).continues rfl
  case readState =>
    cases ht
    exact (stay .enable _ r.frame.rxLen).continues rfl
  case enable =>
    split at ht <;> cases ht <;> exact (stay .pollReady r.frame.stateRead r.frame.rxLen).continues rfl
  case pollReady =>
    cases ht
    split
    · exact (stay .start r.frame.stateRead r.frame.rxLen).continues rfl
    · exact (stay .pollReady r.frame.stateRead r.frame.rxLen).continues (by rw [goto_seqr, hl])
  case start =>
    cases ht
    exact (stay .pollDone r.frame.stateRead r.frame.rxLen).continues rfl
  case pollDone =>
    cases ht
    split
    · exact (stay .readLen r.frame.stateRead r.frame.rxLen).continues rfl
    · exact (stay .pollDone r.frame.stateRead r.frame.rxLen).continues (by rw [goto_seqr, hl])
  case readLen =>
    obtain ⟨-, ht⟩ := memRead_next ht
    cases ht
    exact (stay .readFrame r.frame.stateRead _).continues rfl
  case readFrame =>
    obtain ⟨-, ht⟩ := memRead_next ht
    cases ht
    exact (follows_rxRet hok hl _).continues rfl

/-- From a line of ReceiveOnceProc to one that dispatches nothing. -/
theorem follows_once {l : OnceLine} (hl : r.line = .once l) (l' : OnceLine) (hl' : l' ≠ .dispatch) (m : Option MacFrame)
    (n : NwkOutcome) : Follows i s r { r with line := .once l', frame := { r.frame with mac := m, nwk := n } } where
  op := rfl
  ops := rfl
  ok := by
    have honce : onceOk i r.frame = true := by simp_all [runOk]
    exact honce
  construct := nofun
  phase := by simp [inPhaseTwo, hl]
  dispatch h := by
    cases l'
    case dispatch => exact absurd rfl hl'
    all_goals cases h

/-- From a line of ReceiveOnceProc to its caller. -/
theorem follows_onceRet {l : OnceLine} (hl : r.line = .once l) (m : Option MacFrame) (n : NwkOutcome) :
    Follows i s r { r with line := r.frame.onceRet, frame := { r.frame with mac := m, nwk := n } } := by
  have honce : onceOk i r.frame = true := by simp_all [runOk]
  obtain ⟨hret, rfl⟩ | ⟨hret, hi, hk⟩ := onceOk_return honce <;> rw [hret]
  · exact ⟨rfl, rfl, rfl, nofun, nofun, nofun⟩
  · exact ⟨rfl, rfl, (Bool.and_eq_true _ _).mpr ⟨hi, decide_eq_true hk⟩, nofun, by simp [inPhaseTwo, hl], nofun⟩

/-- From the decode line to the dispatch of a frame for the device. -/
theorem follows_dispatch {m : MacFrame} (hl : r.line = .once .decode) (hm : addressedToMe m s = true) (n : NwkOutcome) :
    Follows i s r { r with line := .once .dispatch, frame := { r.frame with mac := some m, nwk := n } } where
  op := rfl
  ops := rfl
  ok := by
    have honce : onceOk i r.frame = true := by simp_all [runOk]
    exact honce
  construct := nofun
  phase := by simp [inPhaseTwo, hl]
  dispatch _ := .inr ⟨hl, m, rfl, hm⟩

/-- From the decode line to the acknowledgement of a frame for the device. -/
theorem follows_ack {m : MacFrame} (hl : r.line = .once .decode) (hm : addressedToMe m s = true) (n : NwkOutcome)
    (bs : Bytes) (len : Byte) :
    Follows i s r { r with
      line := .tx .check
      frame := { r.frame with mac := some m, nwk := n, txBytes := bs, txOnAir := len, txRet := .once .dispatch } } where
  op := rfl
  ops := rfl
  ok := by
    have honce : onceOk i r.frame = true := by simp_all [runOk]
    exact (Bool.and_eq_true _ _).mpr ⟨txOk_of_onceOk honce rfl, rfl⟩
  construct := nofun
  phase := by simp [inPhaseTwo, hl]
  dispatch _ := .inr ⟨hl, m, rfl, hm⟩

/-- The decode line: a frame for the device goes to its dispatch, acknowledged first where it asks for it. -/
theorem onceDecode_continues (hl : r.line = .once .decode) : Continues i s r (onceDecode r s) := by
  unfold onceDecode
  split
  · exact (follows_once hok hl .logParse (by decide) none .notForwarded).continues rfl
  · rename_i m _
    split
    · split
      · exact (follows_ack hok hl ‹_› .notForwarded _ _).continues rfl
      · exact (follows_dispatch hok hl ‹_› .notForwarded).continues rfl
    · exact (follows_onceRet hok hl (some m) .notForwarded).continues rfl

/-- A line of ReceiveOnceProc. -/
theorem onceStep_continues {l : OnceLine} (hl : r.line = .once l) : Continues i s r (onceStep l r s) := by
  have back : Follows i s r { r with line := r.frame.onceRet } := follows_onceRet hok hl r.frame.mac r.frame.nwk
  cases l with
  | decode => exact onceDecode_continues hok hl
  | logParse => exact back.continues rfl
  | dispatch =>
    simp only [onceStep, onceDispatch]
    split
    · exact back.continues rfl
    · split
      · exact (follows_once hok hl .nwk (by decide) r.frame.mac r.frame.nwk).continues rfl
      · exact back.continues rfl
  | nwk =>
    simp only [onceStep, onceNwk]
    split
    · exact back.continues rfl
    · split
      · exact (follows_once hok hl .logNwk (by decide) r.frame.mac _).continues rfl
      · exact (follows_onceRet hok hl r.frame.mac _).continues rfl
  | logNwk => exact back.continues rfl

/-- From a line of WriteAndExpectAckProc to its caller, with the counter within the bound. -/
theorem follows_waitRet {l : WaitLine} (hl : r.line = .wait l) (k : Nat) (b : Bool) :
    Follows i s r { r with line := r.frame.waitRet, frame := { r.frame with k := k, acked := b } } := by
  have hwait : waitOk i r.frame = true := by cases l <;> simp_all [runOk]
  obtain ⟨hret, hi⟩ | ⟨rfl, hret | hret⟩ := waitOk_return hwait <;> rw [hret]
  · exact ⟨rfl, rfl, hi, nofun, nofun, nofun⟩
  · exact ⟨rfl, rfl, rfl, nofun, nofun, nofun⟩
  · exact ⟨rfl, rfl, rfl, nofun, fun _ => .inl (by simp [inPhaseTwo, hl, hret]), nofun⟩

/-- From the length test to the transmission. -/
theorem follows_waitSend (hl : r.line = .wait .check) (bs : Bytes) (len : Byte) :
    Follows i s r { r with
      line := .tx .check
      frame := { r.frame with txBytes := bs, txOnAir := len, txRet := .wait .loop } } where
  op := rfl
  ops := rfl
  ok := by
    have hwait : waitOk i r.frame = true := by simp_all [runOk]
    exact (Bool.and_eq_true _ _).mpr ⟨txOk_of_waitOk hwait rfl, rfl⟩
  construct := nofun
  phase := by simp [inPhaseTwo, hl]
  dispatch := nofun

/-- From the loop's test to an attempt. -/
theorem follows_waitAttempt (hl : r.line = .wait .loop) (hk : r.frame.k < Config.ackAttempts) :
    Follows i s r { r with
      line := .rx .shorts
      frame := { r.frame with onceRet := .wait .tally, rxRet := .once .decode } } where
  op := rfl
  ops := rfl
  ok := by
    have hwait : waitOk i r.frame = true := by simp_all [runOk]
    exact rxOk_of_onceOk (onceOk_of_waitOk hwait hk rfl) rfl
  construct := nofun
  phase := by simp [inPhaseTwo, hl]
  dispatch := nofun

/-- From an attempt's tally to the loop's test, the attempt counted. -/
theorem follows_waitTally (hl : r.line = .wait .tally) :
    Follows i s r { r with line := .wait .loop, frame := { r.frame with k := r.frame.k + 1 } } where
  op := rfl
  ops := rfl
  ok := by
    simp only [runOk, hl, waitOk, Bool.and_eq_true, decide_eq_true_eq] at hok ⊢
    obtain ⟨⟨-, hret⟩, hk⟩ := hok
    exact ⟨hk, hret⟩
  construct := nofun
  phase := by simp [inPhaseTwo, hl]
  dispatch := nofun

/-- A line of WriteAndExpectAckProc. -/
theorem waitStep_continues {l : WaitLine} (hl : r.line = .wait l) : Continues i s r (waitStep l r s) := by
  cases l <;> simp only [waitStep] <;> split
  · exact .inl ⟨_, rfl⟩
  · exact (follows_waitSend hok hl _ _).continues rfl
  · exact (follows_waitAttempt hok hl ‹_›).continues rfl
  · exact (follows_waitRet hok hl r.frame.k false).continues rfl
  · exact (follows_waitRet hok hl (r.frame.k + 1) true).continues rfl
  · exact (follows_waitTally hok hl).continues rfl

end

/-! ### The lines of CONSTRUCT, CONFIGURE and ASSOCIATE, and a command's first and last -/

section
variable {s : State} {r : Run}

/-- A line of CONSTRUCT goes on to the next. -/
theorem constructStep_continues {l : ConstructLine} (hl : r.line = .construct l) :
    Continues .construct s r (constructStep l r s) := by
  cases l <;> exact Follows.continues rfl ⟨rfl, rfl, rfl, fun _ _ => .inr ⟨_, hl⟩, nofun, nofun⟩

/-- A line of CONFIGURE raises RANGE_ERROR or goes on to the next. -/
theorem configureStep_continues {f : Nat} (l : ConfigureLine) :
    Continues (.configure f) s r (configureStep f l r s) := by
  cases l with
  | rangeTest =>
    simp only [configureStep]
    split
    · exact Follows.continues rfl ⟨rfl, rfl, rfl, nofun, nofun, nofun⟩
    · exact .inr (.inl rfl)
  | _ => exact Follows.continues rfl ⟨rfl, rfl, rfl, nofun, nofun, nofun⟩

/-- A line of ASSOCIATE: an acknowledged wait enters the second phase, or ends it. -/
theorem assocStep_continues {l : AssocLine} (hl : r.line = .assoc l) : Continues .associate s r (assocStep l r s) := by
  cases l with
  | afterRequest =>
    simp only [assocStep]
    split
    · exact Follows.continues rfl ⟨rfl, rfl, rfl, nofun, fun _ => .inr ⟨hl, ‹_›⟩, nofun⟩
    · exact Follows.continues rfl ⟨rfl, rfl, rfl, nofun, nofun, nofun⟩
  | afterDataRequest =>
    simp only [assocStep]
    split <;> exact Follows.continues rfl ⟨rfl, rfl, rfl, nofun, fun _ => .inl (by simp [inPhaseTwo, hl]), nofun⟩
  | request => exact Follows.continues rfl ⟨rfl, rfl, rfl, nofun, nofun, nofun⟩
  | abort => exact .inr (.inl rfl)
  | fail => exact .inr (.inl rfl)
  | _ => exact Follows.continues rfl ⟨rfl, rfl, rfl, nofun, fun _ => .inl (by simp [inPhaseTwo, hl]), nofun⟩

/-- A command's first line halts the block, ends the command, or goes on into its micro-program. -/
theorem entry_continues {i : Instr} {t : State} (hh : s.halted = none) (hs : s.seqr = .running r) (hl : r.line = .entry)
    (hok : runOk i r = true) (he : exec i s = .next t) : Continues i s r t := by
  have hwait : r.frame.waitRet = .entry := by
    have hframe : r.frame = Frame.start r.frame.ops := by simpa [runOk, hl] using hok
    rw [hframe]
    rfl
  obtain ⟨x, rfl⟩ | ⟨v, rfl⟩ | rfl | ⟨rfl, rfl⟩ | ⟨f, rfl, rfl⟩ | ⟨n, rfl, rfl⟩ | ⟨rfl, rfl⟩ | ⟨rfl, rfl⟩ | ⟨rfl, rfl⟩ |
    ⟨seq, rfl, rfl⟩ | ⟨rfl, rfl⟩ := exec_entry hh hs hl he
  · exact .inl ⟨x, rfl⟩
  · exact .inr (.inl rfl)
  · exact .inr (.inl rfl)
  · exact Follows.continues rfl ⟨rfl, rfl, rfl, fun _ h => by cases h; exact .inl rfl, nofun, nofun⟩
  · exact Follows.continues rfl ⟨rfl, rfl, rfl, nofun, nofun, nofun⟩
  · exact Follows.continues rfl ⟨rfl, rfl, rfl, nofun, by simp [inPhaseTwo, hwait], nofun⟩
  · exact Follows.continues rfl ⟨rfl, rfl, rfl, nofun, by simp [inPhaseTwo, hwait], nofun⟩
  · exact Follows.continues rfl ⟨rfl, rfl, rfl, nofun, by simp [inPhaseTwo, hwait], nofun⟩
  · exact Follows.continues rfl ⟨rfl, rfl, rfl, nofun, by simp [inPhaseTwo, hwait], nofun⟩
  · exact Follows.continues rfl ⟨rfl, rfl, rfl, nofun, nofun, nofun⟩
  · exact Follows.continues rfl ⟨rfl, rfl, rfl, nofun, nofun, nofun⟩

end

/-- A step of the running command, from a position of its micro-program. -/
theorem exec_continues {i : Instr} {s t : State} {r : Run} (he : exec i s = .next t) (hh : s.halted = none)
    (hs : s.seqr = .running r) (hok : runOk i r = true) : Continues i s r t := by
  cases hl : r.line with
  | entry => exact entry_continues hh hs hl hok he
  | construct l =>
    obtain ⟨rfl, rfl⟩ := exec_construct hh hs hl he
    exact constructStep_continues hl
  | configure l =>
    obtain ⟨f, rfl, rfl⟩ := exec_configure hh hs hl he
    exact configureStep_continues l
  | tx l => exact txStep_continues hok hl (exec_tx hh hs hl he)
  | rx l => exact rxStep_continues hok hl (exec_rx hh hs hl he)
  | once l =>
    obtain rfl := exec_once hh hs hl he
    exact onceStep_continues hok hl
  | wait l =>
    obtain rfl := exec_wait hh hs hl he
    exact waitStep_continues hok hl
  | assoc l =>
    obtain ⟨rfl, rfl⟩ := exec_assoc hh hs hl he
    exact assocStep_continues hl
  | finish =>
    obtain ⟨v, rfl⟩ | rfl | ⟨seq, rfl, rfl⟩ := exec_finish hh hs hl he
    · exact .inr (.inl rfl)
    · exact .inr (.inl rfl)
    · exact Follows.continues rfl ⟨rfl, rfl, rfl, nofun, nofun, nofun⟩
  | raiseTimeout =>
    obtain rfl := exec_raiseTimeout hh hs hl he
    exact .inr (.inl rfl)

/-! ## Every agent's step -/

/-- What CONSTRUCT sets up for good, unchanged (rules R25, R26, R38, R42). -/
structure KeepsSetup (s t : State) : Prop where
  constructed : t.constructed = s.constructed
  ownExtended : t.ownExtended = s.ownExtended
  packetPtr : t.radio.packetPtr = s.radio.packetPtr
  pcnf1 : t.radio.pcnf1 = s.radio.pcnf1

/-- Which turn was used up does not matter. -/
theorem KeepsSetup.of_turns {s t : State} {ts : List Turn} (h : KeepsSetup { s with turns := ts } t) : KeepsSetup s t :=
  ⟨h.constructed, h.ownExtended, h.packetPtr, h.pcnf1⟩

/-- What a step that runs no line of a command leaves: the lasting registers and the sequencer, but for a command's
start. -/
structure OutsideStep (s t : State) : Prop where
  setup : KeepsSetup s t
  session : t.session = s.session
  seqr : t.seqr = s.seqr ∨ ∃ h i, decode h.cmd = .command i ∧ t.seqr = .running (startedRun h)

/-- A step runs a line of the running command, the next turn being used up, or is a step outside it. -/
theorem step_line_or_outside {s t : State} (h : step s = .next t) :
    OutsideStep s t ∨ ∃ ts r i, s.halted = none ∧ s.seqr = .running r ∧ decode r.frame.ops.cmd = .command i ∧
      exec i { s with turns := ts } = .next t := by
  refine step_rec h (fun t => OutsideStep s t ∨ ∃ ts r i, s.halted = none ∧ s.seqr = .running r ∧
      decode r.frame.ops.cmd = .command i ∧ exec i { s with turns := ts } = .next t)
    (fun _ _ => .inl ⟨⟨rfl, rfl, rfl, rfl⟩, rfl, .inl rfl⟩) (fun _ _ _ => .inl ⟨⟨rfl, rfl, rfl, rfl⟩, rfl, .inl rfl⟩)
    (fun _ _ c i _ _ hd => .inl ⟨⟨rfl, rfl, rfl, rfl⟩, rfl, .inr ⟨s.host.set (.cmd c), i, hd, rfl⟩⟩)
    (fun _ _ _ _ _ => .inl ⟨⟨rfl, rfl, rfl, rfl⟩, rfl, .inl rfl⟩)
    (fun ts r i hh hs hd he => .inr ⟨ts, r, i, hh, hs, hd, he⟩)
    (fun _ _ _ _ _ _ => .inl ⟨⟨rfl, rfl, rfl, rfl⟩, rfl, .inl rfl⟩) (fun ts m => .inl ?_)
  obtain ⟨-, -, hseqr, -, hcon, hown, hses, -⟩ := radioStep_frame m { s with turns := ts }
  obtain ⟨-, hptr, -, -, -, hpcnf1, -⟩ := radioStep_config m { s with turns := ts }
  exact ⟨⟨hcon, hown, hptr, hpcnf1⟩, hses, .inl hseqr⟩

/-- Settles O52: a start is a position of the command's micro-program, and `exec_continues` leads from one to the
next. -/
theorem sequencerStaysInItsProgram : Obligations.SequencerStaysInItsProgram := by
  intro s t h hok
  obtain hout | ⟨ts, r, i, hh, hs, hd, he⟩ := step_line_or_outside h
  · obtain hsame | ⟨h, i, hd, hstart⟩ := hout.seqr
    · rw [hsame]
      exact hok
    · rw [hstart]
      exact seqrOk_startedRun hd
  · rw [hs] at hok
    obtain ⟨hop, hrun⟩ := (seqrOk_running hd).mp hok
    obtain ⟨x, rfl⟩ | hidle | ⟨r', hr', hf⟩ := exec_continues he hh hs hrun
    · exact hs ▸ hok
    · rw [hidle]
      rfl
    · rw [hr']
      exact (seqrOk_running (by rw [hf.ops]; exact hd)).mpr ⟨hf.op.trans hop, hf.ok⟩

/-! ## The lasting registers -/

/-- What a line of a command may do to the session registers: `x` before it, `y` after it (rules R133, R201, R213). -/
inductive SessionChange (r : Run) (x y : Session) : Prop where
  | same (hy : y = x)
  | reset (hl : r.line = .construct .initSession) (hy : y = Session.reset)
  | assign (m : MacFrame) (a : Half) (st : AssocStatus) (hl : r.line = .once .dispatch) (hm : r.frame.mac = some m)
      (hc : m.content = .associationResponse a st) (hy : y = { x with assignedShort := some a })
  | extend (hl : r.line = .assoc .afterRequest) (hack : r.frame.acked = true) (hy : y = { x with extActive := true })
  | assocAcked (hl : r.line = .assoc .setAcked) (hy : y = { x with handshake := .assocAcked })
  | dataReqAcked (hl : r.line = .assoc .afterDataRequest) (hack : r.frame.acked = true)
      (hy : y = { x with handshake := .dataReqAcked })

section
variable {i : Instr} {s t : State} {r : Run} (he : exec i s = .next t) (hh : s.halted = none)
  (hs : s.seqr = .running r)
include he hh hs

/-- Outside CONSTRUCT's lines a step changes nothing that CONSTRUCT sets up for good. -/
theorem exec_keepsSetup (hco : ∀ l, r.line ≠ .construct l) : KeepsSetup s t := by
  refine running_rec hh hs he (KeepsSetup s) (fun _ => ⟨rfl, rfl, rfl, rfl⟩) (fun _ => ⟨rfl, rfl, rfl, rfl⟩)
    (fun _ _ _ _ => ⟨rfl, rfl, rfl, rfl⟩) (fun _ _ _ => ⟨rfl, rfl, rfl, rfl⟩) (fun _ _ => ⟨rfl, rfl, rfl, rfl⟩)
    (fun l _ ht => ?tx) (fun l _ ht => ?rx) (fun l hl => absurd hl (hco l)) (fun f l _ => ?cf) (fun l _ => ?as)
    (fun _ => ?disp)
  case tx =>
    refine tx_rec ht (KeepsSetup s) (fun _ => ?_) (fun _ _ _ => ?_) (fun _ => ?_) (fun _ _ => ?_) ?_ ?_ ?_ <;>
      exact ⟨rfl, rfl, rfl, rfl⟩
  case rx =>
    refine rx_rec ht (KeepsSetup s) (fun _ _ _ => ?_) ?_ ?_ ?_ <;> exact ⟨rfl, rfl, rfl, rfl⟩
  case cf =>
    cases l <;> simp only [configureStep] <;> (repeat' split) <;> exact ⟨rfl, rfl, rfl, rfl⟩
  case as =>
    cases l <;> simp only [assocStep] <;> (repeat' split) <;> exact ⟨rfl, rfl, rfl, rfl⟩
  case disp =>
    unfold onceDispatch dispatch
    (repeat' split) <;> exact ⟨rfl, rfl, rfl, rfl⟩

/-- The lines that write the session registers, and what they write. -/
theorem exec_sessionChange : SessionChange r s.session t.session := by
  refine running_rec hh hs he (fun t => SessionChange r s.session t.session) (fun _ => .same rfl) (fun _ => .same rfl)
    (fun _ _ _ _ => .same rfl) (fun _ _ _ => .same rfl) (fun _ _ => .same rfl) (fun l _ ht => ?tx) (fun l _ ht => ?rx)
    (fun l hl => ?co) (fun f l _ => ?cf) (fun l hl => ?as) (fun hl => ?disp)
  case tx =>
    exact tx_rec ht (fun t => SessionChange r s.session t.session) (fun _ => .same rfl) (fun _ _ _ => .same rfl)
      (fun _ => .same rfl) (fun _ _ => .same rfl) (.same rfl) (.same rfl) (.same rfl)
  case rx =>
    exact rx_rec ht (fun t => SessionChange r s.session t.session) (fun _ _ _ => .same rfl) (.same rfl) (.same rfl)
      (.same rfl)
  case co =>
    cases l with
    | initSession => exact .reset hl rfl
    | _ => exact .same rfl
  case cf =>
    cases l <;> simp only [configureStep] <;> (repeat' split) <;> exact .same rfl
  case as =>
    cases l with
    | afterRequest =>
      simp only [assocStep]
      split
      · exact .extend hl ‹_› rfl
      · exact .same rfl
    | setAcked => exact .assocAcked hl rfl
    | afterDataRequest =>
      simp only [assocStep]
      split
      · exact .dataReqAcked hl ‹_› rfl
      · exact .same rfl
    | _ => exact .same rfl
  case disp =>
    unfold onceDispatch
    split
    · exact .same rfl
    · rename_i m hm
      have hd : SessionChange r s.session (dispatch m s).session := by
        unfold dispatch
        split
        · exact .assign m _ _ hl hm ‹_› rfl
        · exact .same rfl
      split <;> exact hd

/-- `constructed` changes at CONSTRUCT's last line, which sets it (rule R25). -/
theorem exec_constructed (hne : t.constructed ≠ s.constructed) :
    r.line = .construct .setConstructed ∧ t.constructed = true := by
  by_cases hco : ∀ l, r.line ≠ .construct l
  · exact absurd (exec_keepsSetup he hh hs hco).constructed hne
  · push Not at hco
    obtain ⟨l, hl⟩ := hco
    obtain ⟨-, rfl⟩ := exec_construct hh hs hl he
    cases l with
    | setConstructed => exact ⟨hl, rfl⟩
    | _ => exact absurd rfl hne

/-- `ownExtended` changes at CONSTRUCT's line for it (rule R26). -/
theorem exec_ownExtended (hne : t.ownExtended ≠ s.ownExtended) : r.line = .construct .setExtended := by
  by_cases hco : ∀ l, r.line ≠ .construct l
  · exact absurd (exec_keepsSetup he hh hs hco).ownExtended hne
  · push Not at hco
    obtain ⟨l, hl⟩ := hco
    obtain ⟨-, rfl⟩ := exec_construct hh hs hl he
    cases l with
    | setExtended => exact hl
    | _ => exact absurd rfl hne

end

/-- The extended address stays active but at CONSTRUCT's initialisation of the session. -/
theorem SessionChange.extActive {r : Run} {x y : Session} (h : SessionChange r x y) (hx : x.extActive = true)
    (hl : r.line ≠ .construct .initSession) : y.extActive = true := by
  cases h with
  | reset hr _ => exact absurd hr hl
  | _ => simp_all

/-- The session registers are the same at the lines that send an acknowledgement and at the decode line. -/
theorem SessionChange.eq_of_tx_or_decode {r : Run} {x y : Session} (h : SessionChange r x y)
    (hl : (∃ l, r.line = .tx l) ∨ r.line = .once .decode) : y = x := by
  cases h <;> simp_all

/-! ## Where a running command's position comes from -/

/-- How a step comes to a state whose sequencer is at `r'`: it leaves the sequencer and the lasting registers alone,
starts a command, or runs the line that goes on to `r'`. -/
inductive Arrives (s t : State) (r' : Run) : Prop where
  | stays (hs : s.seqr = .running r') (hset : KeepsSetup s t) (hses : t.session = s.session)
  | starts (h : HostRegs) (hr : r' = startedRun h)
  | line (ts : List Turn) (i : Instr) (r : Run) (hh : s.halted = none) (hs : s.seqr = .running r)
      (he : exec i { s with turns := ts } = .next t) (hf : Follows i { s with turns := ts } r r')

/-- Every running position a step leaves is one of these. -/
theorem arrives_of_step {s t : State} {r' : Run} (h : step s = .next t) (hok : seqrOk s.seqr = true)
    (hr' : t.seqr = .running r') : Arrives s t r' := by
  obtain hout | ⟨ts, r, i, hh, hs, hd, he⟩ := step_line_or_outside h
  · obtain hsame | ⟨h, i, -, hstart⟩ := hout.seqr
    · exact .stays (hsame ▸ hr') hout.setup hout.session
    · exact .starts h (by rw [hr'] at hstart; injection hstart)
  · rw [hs] at hok
    obtain ⟨-, hrun⟩ := (seqrOk_running hd).mp hok
    obtain ⟨x, rfl⟩ | hidle | ⟨q, hq, hf⟩ := exec_continues he hh hs hrun
    · exact .stays hr' ⟨rfl, rfl, rfl, rfl⟩ rfl
    · rw [hidle] at hr'
      cases hr'
    · rw [hq] at hr'
      cases hr'
      exact .line ts i r hh hs he hf

/-! ## PACKETPTR and PCNF1 -/

/-- A state whose sequencer is at a known position is programmed if each of the three demands is met. -/
theorem programmedOk_running {t : State} {r : Run} (ht : t.seqr = .running r)
    (hcon : t.constructed = true → ptrSet t ∧ pcnf1Set t) (hptr : r.line = .construct .setPcnf1 → ptrSet t)
    (hboth : r.line = .construct .initSession ∨ r.line = .construct .setConstructed → ptrSet t ∧ pcnf1Set t) :
    ProgrammedOk t :=
  ⟨hcon, fun r' hr' => by
    rw [ht] at hr'
    cases hr'
    exact ⟨hptr, hboth⟩⟩

/-- Each line of CONSTRUCT finds what its earlier lines programmed (rule R133). -/
theorem constructStep_keeps_programmed {s : State} {r : Run} {l : ConstructLine} (hs : s.seqr = .running r)
    (hl : r.line = .construct l) (hp : ProgrammedOk s) : ProgrammedOk (constructStep l r s) := by
  obtain ⟨hcon, hline⟩ := hp
  obtain ⟨hptr, hboth⟩ := hline r hs
  cases l with
  | setPacketPtr => exact programmedOk_running rfl (fun h => ⟨rfl, (hcon h).2⟩) (fun _ => rfl) (by simp)
  | setPcnf1 => exact programmedOk_running rfl (fun _ => ⟨hptr hl, rfl⟩) (by simp) (fun _ => ⟨hptr hl, rfl⟩)
  | initSession => exact programmedOk_running rfl hcon (by simp) (fun _ => hboth (.inl hl))
  | setConstructed => exact programmedOk_running rfl (fun _ => hboth (.inr hl)) (by simp) (by simp)
  | _ => exact programmedOk_running rfl hcon (by simp) (by simp)

/-- A step that keeps what CONSTRUCT has set up, to a position at none of CONSTRUCT's lines past the first or at the
position it left, keeps the programming. -/
theorem KeepsSetup.programmedOk {s t : State} (hk : KeepsSetup s t) (hp : ProgrammedOk s)
    (hpos : ∀ r', t.seqr = .running r' → s.seqr = .running r' ∨ ∀ l, r'.line = .construct l → l = .readHi) :
    ProgrammedOk t := by
  obtain ⟨hcon, hline⟩ := hp
  have hptr : ptrSet t ↔ ptrSet s := by simp only [ptrSet, hk.packetPtr]
  have hpcnf1 : pcnf1Set t ↔ pcnf1Set s := by simp only [pcnf1Set, hk.pcnf1]
  simp only [ProgrammedOk, hptr, hpcnf1, hk.constructed]
  refine ⟨hcon, fun r' hr' => ?_⟩
  obtain hsame | hfirst := hpos r' hr'
  · exact hline r' hsame
  · refine ⟨fun hl => absurd (hfirst _ hl) (by decide), ?_⟩
    rintro (hl | hl) <;> exact absurd (hfirst _ hl) (by decide)

/-- Settles O55: CONSTRUCT's lines program the registers before they set `constructed`, and no other line writes them. -/
theorem constructedStaysProgrammed : Obligations.ConstructedStaysProgrammed := by
  intro s t h hok hp
  obtain hout | ⟨ts, r, i, hh, hs, hd, he⟩ := step_line_or_outside h
  · refine hout.setup.programmedOk hp fun r' hr' => ?_
    obtain hsame | ⟨h, i, -, hstart⟩ := hout.seqr
    · exact .inl (hsame ▸ hr')
    · rw [hr'] at hstart
      cases hstart
      exact .inr nofun
  by_cases hco : ∀ l, r.line ≠ .construct l
  · have hk : KeepsSetup s t := (exec_keepsSetup he hh hs hco).of_turns
    refine hk.programmedOk hp fun r' hr' => ?_
    cases arrives_of_step h hok hr' with
    | stays hsame _ _ => exact .inl hsame
    | starts h hr => subst hr; exact .inr nofun
    | line ts' i' q hh' hs' he' hf =>
      obtain rfl : r = q := by rw [hs] at hs'; injection hs'
      exact .inr fun l' hl' => (hf.construct l' hl').resolve_right fun ⟨l, hl⟩ => hco l hl
  · push Not at hco
    obtain ⟨l, hl⟩ := hco
    obtain ⟨-, rfl⟩ := exec_construct (s := { s with turns := ts }) hh hs hl he
    exact constructStep_keeps_programmed (s := { s with turns := ts }) hs hl hp

/-! ## The handshake phases -/

/-- A handshake phase goes with an active extended address, before a line's step and after it. -/
theorem SessionChange.phase {r : Run} {x y : Session} (h : SessionChange r x y)
    (hx : x.handshake ≠ .noHandshake → x.extActive = true) (hr : inPhaseTwo r = true → x.extActive = true) :
    y.handshake ≠ .noHandshake → y.extActive = true := by
  cases h with
  | assocAcked hl hy =>
    subst hy
    exact fun _ => hr (by simp [inPhaseTwo, hl])
  | dataReqAcked hl _ hy =>
    subst hy
    exact fun _ => hr (by simp [inPhaseTwo, hl])
  | extend _ _ hy => simp [hy]
  | reset _ hy => simp [hy, Session.reset]
  | same hy => simpa [hy] using hx
  | assign _ _ _ _ _ _ hy => simpa [hy] using hx

/-- Settles O56: the second phase begins at the line that makes the extended address active, and CONSTRUCT, which
clears it, clears the phase. -/
theorem handshakeNeedsActiveAddress : Obligations.HandshakeNeedsActiveAddress := by
  intro s t h hok hp
  obtain ⟨hhand, hphase⟩ := hp
  refine ⟨?_, fun r' hr' hin => ?_⟩
  · obtain hout | ⟨ts, r, i, hh, hs, -, he⟩ := step_line_or_outside h
    · rw [hout.session]
      exact hhand
    · exact (exec_sessionChange he hh hs).phase hhand (hphase r hs)
  · cases arrives_of_step h hok hr' with
    | stays hsame _ hses =>
      rw [hses]
      exact hphase r' hsame hin
    | starts h hr =>
      subst hr
      cases hin
    | line ts i r hh hs he hf =>
      obtain hr | ⟨hl, hack⟩ := hf.phase hin
      · refine (exec_sessionChange he hh hs).extActive (hphase r hs hr) fun hl => ?_
        simp [inPhaseTwo, hl] at hr
      · obtain ⟨-, rfl⟩ := exec_assoc (s := { s with turns := ts }) hh hs hl he
        simp [assocStep, hack]

/-! ## The dispatch of a frame -/

/-- The address match reads the session registers and the extended address only (rule R200). -/
theorem addressedToMe_congr {s t : State} (m : MacFrame) (hses : t.session = s.session)
    (hown : t.ownExtended = s.ownExtended) : addressedToMe m t = addressedToMe m s := by
  simp [addressedToMe, hses, hown]

/-- Every step keeps a frame that comes to its dispatch addressed to the device. -/
theorem step_keeps_dispatchOk {s t : State} (h : step s = .next t) (hok : seqrOk s.seqr = true) (hd : DispatchOk s) :
    DispatchOk t := by
  intro r' hr' hdisp
  cases arrives_of_step h hok hr' with
  | stays hsame hset hses =>
    obtain ⟨m, hm, hadr⟩ := hd r' hsame hdisp
    exact ⟨m, hm, by rw [addressedToMe_congr m hses hset.ownExtended]; exact hadr⟩
  | starts h hr =>
    subst hr
    cases hdisp
  | line ts i r hh hs he hf =>
    have hfrom := hf.dispatch hdisp
    have hl : (∃ l, r.line = .tx l) ∨ r.line = .once .decode := hfrom.imp (·.1) (·.1)
    have hses := (exec_sessionChange he hh hs).eq_of_tx_or_decode hl
    have hset := exec_keepsSetup he hh hs fun l hco => by simp [hco] at hl
    obtain ⟨-, hr, hmac⟩ | ⟨-, m, hm, hadr⟩ := hfrom
    · obtain ⟨m, hm, hadr⟩ := hd r hs hr
      exact ⟨m, hmac.trans hm, by rw [addressedToMe_congr m hses hset.ownExtended]; exact hadr⟩
    · exact ⟨m, hm, by rw [addressedToMe_congr m hses hset.ownExtended]; exact hadr⟩

/-! ## Where the lasting registers change -/

/-- The line of a command at which a step has changed a lasting register. -/
theorem line_of_step {s t : State} (h : step s = .next t) (hne : ¬ (KeepsSetup s t ∧ t.session = s.session)) :
    ∃ ts r i, s.halted = none ∧ s.seqr = .running r ∧ exec i { s with turns := ts } = .next t := by
  obtain hout | ⟨ts, r, i, hh, hs, -, he⟩ := step_line_or_outside h
  · exact absurd ⟨hout.setup, hout.session⟩ hne
  · exact ⟨ts, r, i, hh, hs, he⟩

/-- `assignedShort` changes at CONSTRUCT's initialisation and at the dispatch of an association response (rule R28). -/
theorem step_assignedShort {s t : State} (h : step s = .next t)
    (hne : t.session.assignedShort ≠ s.session.assignedShort) :
    ∃ r, runs s r (.construct .initSession) ∨
      (runs s r (.once .dispatch) ∧ ∃ m a st, r.frame.mac = some m ∧ m.content = .associationResponse a st ∧
        t.session.assignedShort = some a) := by
  obtain ⟨ts, r, i, hh, hs, he⟩ := line_of_step h fun ⟨_, hses⟩ => hne (by rw [hses])
  refine ⟨r, ?_⟩
  cases exec_sessionChange he hh hs with
  | reset hl _ => exact .inl ⟨hh, hs, hl⟩
  | assign m a st hl hm hc hy => exact .inr ⟨⟨hh, hs, hl⟩, m, a, st, hm, hc, by rw [hy]⟩
  | _ => simp_all

/-- `extActive` changes at CONSTRUCT's initialisation and after the acknowledged association request (rule R27). -/
theorem step_extActive {s t : State} (h : step s = .next t) (hne : t.session.extActive ≠ s.session.extActive) :
    ∃ r, runs s r (.construct .initSession) ∨ (runs s r (.assoc .afterRequest) ∧ r.frame.acked = true) := by
  obtain ⟨ts, r, i, hh, hs, he⟩ := line_of_step h fun ⟨_, hses⟩ => hne (by rw [hses])
  refine ⟨r, ?_⟩
  cases exec_sessionChange he hh hs with
  | reset hl _ => exact .inl ⟨hh, hs, hl⟩
  | extend hl hack _ => exact .inr ⟨⟨hh, hs, hl⟩, hack⟩
  | _ => simp_all

/-- `handshake` changes at CONSTRUCT's initialisation and at ASSOCIATE's two phase lines (rule R29). -/
theorem step_handshake {s t : State} (h : step s = .next t) (hne : t.session.handshake ≠ s.session.handshake) :
    ∃ r, runs s r (.construct .initSession) ∨ runs s r (.assoc .setAcked) ∨
      (runs s r (.assoc .afterDataRequest) ∧ r.frame.acked = true) := by
  obtain ⟨ts, r, i, hh, hs, he⟩ := line_of_step h fun ⟨_, hses⟩ => hne (by rw [hses])
  refine ⟨r, ?_⟩
  cases exec_sessionChange he hh hs with
  | reset hl _ => exact .inl ⟨hh, hs, hl⟩
  | assocAcked hl _ => exact .inr (.inl ⟨hh, hs, hl⟩)
  | dataReqAcked hl hack _ => exact .inr (.inr ⟨⟨hh, hs, hl⟩, hack⟩)
  | _ => simp_all

/-- `constructed` changes at CONSTRUCT's last line, which sets it (rule R25). -/
theorem step_constructed {s t : State} (h : step s = .next t) (hne : t.constructed ≠ s.constructed) :
    (∃ r, runs s r (.construct .setConstructed)) ∧ t.constructed = true := by
  obtain ⟨ts, r, i, hh, hs, he⟩ := line_of_step h fun ⟨hset, _⟩ => hne hset.constructed
  obtain ⟨hl, hset⟩ := exec_constructed he hh hs hne
  exact ⟨⟨r, hh, hs, hl⟩, hset⟩

/-- `ownExtended` changes at CONSTRUCT's line for it (rule R26). -/
theorem step_ownExtended {s t : State} (h : step s = .next t) (hne : t.ownExtended ≠ s.ownExtended) :
    ∃ r, runs s r (.construct .setExtended) := by
  obtain ⟨ts, r, i, hh, hs, he⟩ := line_of_step h fun ⟨hset, _⟩ => hne hset.ownExtended
  exact ⟨r, hh, hs, exec_ownExtended he hh hs hne⟩

/-- Settles O59, register by register; the frame dispatched is the one `step_keeps_dispatchOk` speaks of. -/
theorem lastingRegistersChangeOnlyWhere : Obligations.LastingRegistersChangeOnlyWhere := by
  intro s t h
  refine ⟨fun hcon => ?_, fun hne => (step_constructed h hne).1, step_ownExtended h, step_assignedShort h,
    fun hok hd => ⟨step_keeps_dispatchOk h hok hd, fun hne => ?_⟩, step_extActive h, step_handshake h⟩
  · by_contra hne
    exact hne (step_constructed h (by rw [hcon]; exact hne)).2
  · obtain ⟨r, hinit | ⟨⟨hh, hs, hl⟩, -⟩⟩ := step_assignedShort h hne
    · exact ⟨r, .inl hinit⟩
    · exact ⟨r, .inr ⟨⟨hh, hs, hl⟩, hd r hs (by simp [dispatching, hl])⟩⟩

end Sys2Proof.Machine
end

section
/-! PROOFS. The running command's record: no step changes its opcode or its sampled operands (rule R68), and from a
position of its micro-program every step answers a next state (rules R67, R254). -/

namespace Sys2Proof.Machine

/-! ## The sampled operands -/

/-- A command that runs in the state `t` has the opcode and the sampled operands of `r`. -/
def KeepsOperands (r : Run) (t : State) : Prop :=
  ∀ r', t.seqr = .running r' → r'.op = r.op ∧ r'.frame.ops = r.frame.ops

/-- Where no command runs there is none to compare. -/
theorem KeepsOperands.of_idle {r : Run} {t : State} (ht : t.seqr = .idle) : KeepsOperands r t := fun r' hr' => by
  rw [ht] at hr'
  cases hr'

/-- A running command is compared at its position. -/
theorem KeepsOperands.of_running {r q : Run} {t : State} (ht : t.seqr = .running q) (hop : q.op = r.op)
    (hops : q.frame.ops = r.frame.ops) : KeepsOperands r t := fun r' hr' => by
  rw [ht] at hr'
  cases hr'
  exact ⟨hop, hops⟩

/-- The lines of CONSTRUCT keep the operands. -/
theorem constructStep_keepsOperands (l : ConstructLine) (r : Run) (s : State) :
    KeepsOperands r (constructStep l r s) := by
  cases l <;> exact .of_running rfl rfl rfl

/-- The lines of CONFIGURE keep the operands, or end the command. -/
theorem configureStep_keepsOperands (f : Nat) (l : ConfigureLine) (r : Run) (s : State) :
    KeepsOperands r (configureStep f l r s) := by
  cases l with
  | rangeTest =>
    simp only [configureStep]
    split
    · exact .of_running rfl rfl rfl
    · exact .of_idle rfl
  | _ => exact .of_running rfl rfl rfl

/-- The lines of ASSOCIATE keep the operands, or end the command. -/
theorem assocStep_keepsOperands (l : AssocLine) (r : Run) (s : State) : KeepsOperands r (assocStep l r s) := by
  cases l with
  | afterRequest => simp only [assocStep]; split <;> exact .of_running rfl rfl rfl
  | afterDataRequest => simp only [assocStep]; split <;> exact .of_running rfl rfl rfl
  | abort => exact .of_idle rfl
  | fail => exact .of_idle rfl
  | _ => exact .of_running rfl rfl rfl

/-- The dispatch line keeps the operands. -/
theorem onceDispatch_keepsOperands (r : Run) (s : State) : KeepsOperands r (onceDispatch r s) := by
  unfold onceDispatch
  (repeat' split) <;> exact .of_running rfl rfl rfl

/-- A running command's step keeps the operands: a line that goes on changes other local values only. -/
theorem exec_keepsOperands {i : Instr} {s t : State} {r : Run} (he : exec i s = .next t) (hh : s.halted = none)
    (hs : s.seqr = .running r) : KeepsOperands r t := by
  have moved : ∀ l f (u : State), f.ops = r.frame.ops → KeepsOperands r (gotoWith r l f u) :=
    fun l f u hf => .of_running rfl rfl hf
  have went : ∀ l (u : State), KeepsOperands r (goto r l u) := fun l u => moved l r.frame u rfl
  have halts : ∀ x, KeepsOperands r (halt x s) := fun x => .of_running hs rfl rfl
  exact running_rec hh hs he (KeepsOperands r) halts (fun _ => .of_idle rfl) (fun _ _ _ _ => .of_idle rfl)
    (fun l f hf => moved l f s hf) (fun l m => went l _)
    (fun l _ ht => tx_rec ht (KeepsOperands r) halts (fun l f hf => moved l f s hf) (fun _ => went _ _)
      (fun _ _ => went _ _) (went _ _) (went _ _) (went _ _))
    (fun l _ ht => rx_rec ht (KeepsOperands r) (fun l f hf => moved l f s hf) (went _ _) (went _ _) (went _ _))
    (fun l _ => constructStep_keepsOperands l r s) (fun f l _ => configureStep_keepsOperands f l r s)
    (fun l _ => assocStep_keepsOperands l r s) (fun _ => onceDispatch_keepsOperands r s)

/-- Settles O8: the host and the radio leave the sequencer alone, a start needs an Idle block, and the controller's
lines are `exec_keepsOperands`. -/
theorem sampledOperandsStayFixed : Obligations.SampledOperandsStayFixed := by
  intro s t r r' h hs hr'
  have busy : s.seqr ≠ .idle := by simp [hs]
  have kept : ∀ u : State, u.seqr = s.seqr → KeepsOperands r u := fun u hu => .of_running (hu.trans hs) rfl rfl
  refine step_rec h (KeepsOperands r) (fun _ _ => kept _ rfl) (fun _ _ _ => kept _ rfl)
    (fun _ _ _ _ _ hidle => absurd hidle busy) (fun _ _ _ _ hidle => absurd hidle busy)
    (fun ts q i hh hq _ he => ?_) (fun _ _ _ _ _ _ => kept _ rfl) (fun ts m => ?_) r' hr'
  · exact exec_keepsOperands he hh hs
  · obtain ⟨-, -, hseqr, -⟩ := radioStep_frame m { s with turns := ts }
    exact kept _ hseqr

/-! ## Every line answers a next state

The two faults, an index past the buffer and a line outside the command's micro-program, are what `seqrOk` shuts
out. -/

/-- A line of TransmitBlocking answers: its stores fit the buffer, the frame's by the length test (rules R67, R137). -/
theorem txStep_answers {l : TxLine} {r : Run} {s : State} (hfits : txFits l r.frame = true) :
    ∃ t, txStep l r s = .next t := by
  cases l with
  | check => simp only [txStep]; split <;> exact ⟨_, rfl⟩
  | writeLen =>
    simp only [txStep, memWrite_inside (show 0 + [r.frame.txOnAir].length ≤ 256 by simp)]
    exact ⟨_, rfl⟩
  | writeBytes =>
    have hlen : r.frame.txBytes.length ≤ 255 := of_decide_eq_true hfits
    simp only [txStep, memWrite_inside (show 1 + r.frame.txBytes.length ≤ 256 by omega)]
    exact ⟨_, rfl⟩
  | enable => simp only [txStep]; split <;> exact ⟨_, rfl⟩
  | _ => exact ⟨_, rfl⟩

/-- A line of ReceiveBlocking answers: a length byte's worth of bytes from index 1 on is in the buffer (rules R67,
R138). -/
theorem rxStep_answers (l : RxLine) (r : Run) (s : State) : ∃ t, rxStep l r s = .next t := by
  cases l with
  | enable => simp only [rxStep]; split <;> exact ⟨_, rfl⟩
  | readLen =>
    simp only [rxStep, memRead_inside (show 0 + 1 ≤ 256 by omega)]
    exact ⟨_, rfl⟩
  | readFrame =>
    have hlen : r.frame.rxLen.toNat < 256 := r.frame.rxLen.isLt
    simp only [rxStep, memRead_inside (show 1 + r.frame.rxLen.toNat ≤ 256 by omega)]
    exact ⟨_, rfl⟩
  | _ => exact ⟨_, rfl⟩

/-- A first line that tests `constructed` answers if what follows the test does. -/
theorem needConstructed_answers {s u : State} : ∃ t, needConstructed s (.next u) = .next t := by
  unfold needConstructed
  split <;> exact ⟨_, rfl⟩

/-! ### The commands that have a procedure's lines -/

/-- The wait is a procedure of two commands. -/
theorem callsWait_of_waitOk {i : Instr} {f : Frame} (h : waitOk i f = true) : callsWait i = true := by
  cases i <;> simp_all [waitOk, callsWait]

/-- ReceiveOnceProc runs for RECEIVE_ONCE or within a wait. -/
theorem callsOnce_of_onceOk {i : Instr} {f : Frame} (h : onceOk i f = true) : callsOnce i = true := by
  cases i <;> simp_all [onceOk, waitOk, callsOnce]

/-- ReceiveBlocking runs for RECEIVE or within ReceiveOnceProc. -/
theorem callsReceive_of_rxOk {i : Instr} {f : Frame} (h : rxOk i f = true) : callsReceive i = true := by
  cases i <;> simp_all [rxOk, onceOk, waitOk, callsReceive]

/-- TransmitBlocking runs for the commands that transmit. -/
theorem callsTransmit_of_txOk {i : Instr} {f : Frame} (h : txOk i f = true) : callsTransmit i = true := by
  cases i <;> simp_all [txOk, onceOk, waitOk, callsTransmit]

section
variable {i : Instr} {s : State} {r : Run} (hh : s.halted = none) (hs : s.seqr = .running r)
include hh hs

/-- A command that calls TransmitBlocking runs its lines. -/
theorem exec_eq_txStep {l : TxLine} (hi : callsTransmit i = true) (hl : r.line = .tx l) :
    exec i s = txStep l r s := by
  cases i <;> try cases hi
  all_goals exact (command_running hh hs).trans (by rw [hl])

/-- A command that calls ReceiveBlocking runs its lines. -/
theorem exec_eq_rxStep {l : RxLine} (hi : callsReceive i = true) (hl : r.line = .rx l) :
    exec i s = rxStep l r s := by
  cases i <;> try cases hi
  all_goals exact (command_running hh hs).trans (by rw [hl])

/-- A command that calls ReceiveOnceProc runs its lines. -/
theorem exec_eq_onceStep {l : OnceLine} (hi : callsOnce i = true) (hl : r.line = .once l) :
    exec i s = .next (onceStep l r s) := by
  cases i <;> try cases hi
  all_goals exact (command_running hh hs).trans (by rw [hl])

/-- A command that calls WriteAndExpectAckProc runs its lines. -/
theorem exec_eq_waitStep {l : WaitLine} (hi : callsWait i = true) (hl : r.line = .wait l) :
    exec i s = .next (waitStep l r s) := by
  cases i <;> try cases hi
  all_goals exact (command_running hh hs).trans (by rw [hl])

/-- A command of more than one step has a last line that answers. -/
theorem exec_finish_answers (hi : hasFinish i = true) (hl : r.line = .finish) : ∃ t, exec i s = .next t := by
  cases i <;> try cases hi
  all_goals exact ⟨_, (command_running hh hs).trans (by rw [hl])⟩

/-- The first line of every command answers. -/
theorem exec_entry_answers (i : Instr) (hl : r.line = .entry) : ∃ t, exec i s = .next t := by
  have tested : ∀ {line : Run → Out} {u : State}, line r = needConstructed s (.next u) →
      ∃ t, command s line = .next t := fun {line u} hline => by
    rw [command_running hh hs, hline]
    exact needConstructed_answers
  cases i
  case construct =>
    simp only [exec, execConstruct, runConstruct, command_running hh hs, hl]
    split <;> exact ⟨_, rfl⟩
  case configure | transmit | receive | broadcastBeacon | receiveOnce | writeExpectAck | associate =>
    exact tested (by rw [hl])
  all_goals exact ⟨_, oneStep_entry hh hs hl⟩

/-- A running command at a position of its micro-program answers. -/
theorem exec_running_answers (hok : runOk i r = true) : ∃ t, exec i s = .next t := by
  cases hl : r.line <;> simp only [runOk, hl] at hok
  case entry => exact exec_entry_answers hh hs i hl
  case construct l =>
    obtain rfl : i = .construct := of_decide_eq_true hok
    exact ⟨_, (command_running hh hs).trans (by rw [hl])⟩
  case configure l =>
    split at hok
    · exact ⟨_, (command_running hh hs).trans (by rw [hl])⟩
    · cases hok
  case tx l =>
    obtain ⟨htx, hfits⟩ := (Bool.and_eq_true _ _).mp hok
    rw [exec_eq_txStep hh hs (callsTransmit_of_txOk htx) hl]
    exact txStep_answers hfits
  case rx l =>
    rw [exec_eq_rxStep hh hs (callsReceive_of_rxOk hok) hl]
    exact rxStep_answers l r s
  case once l => exact ⟨_, exec_eq_onceStep hh hs (callsOnce_of_onceOk hok) hl⟩
  case wait l =>
    have hwait : waitOk i r.frame = true := by cases l <;> simp_all
    exact ⟨_, exec_eq_waitStep hh hs (callsWait_of_waitOk hwait) hl⟩
  case assoc l =>
    obtain rfl : i = .associate := of_decide_eq_true hok
    exact ⟨_, (command_running hh hs).trans (by rw [hl])⟩
  case finish => exact exec_finish_answers hh hs hok hl
  case raiseTimeout =>
    split at hok
    · exact ⟨_, (command_running hh hs).trans (by rw [hl])⟩
    · cases hok

end

/-! ### Every agent's step answers -/

/-- The host's step answers: a command word it writes starts a command, halts the block or is ignored. -/
theorem hostStep_answers (s : State) : ∃ t, hostStep s = .next t := by
  unfold hostStep
  split
  · exact ⟨_, rfl⟩
  · unfold hostWrite
    split
    · unfold writeCmd
      split
      · rename_i hh hs
        split
        · exact ⟨_, exec_idle _ hh hs⟩
        · exact ⟨_, rfl⟩
      · exact ⟨_, rfl⟩
    · exact ⟨_, rfl⟩

/-- The controller's step answers if the sequencer is in its micro-program. -/
theorem controllerStep_answers {s : State} (hok : seqrOk s.seqr = true) : ∃ t, controllerStep s = .next t := by
  unfold controllerStep
  split
  · rename_i r hh hs
    split
    · rename_i i hd
      rw [hs] at hok
      obtain ⟨-, hrun⟩ := (seqrOk_running hd).mp hok
      exact exec_running_answers hh hs hrun
    · exact ⟨_, rfl⟩
  · exact ⟨_, rfl⟩

/-- Settles O53: agent by agent; the controller's lines are `exec_running_answers`. -/
theorem everyStepGoesOn : Obligations.EveryStepGoesOn := by
  intro s hok
  obtain ⟨agent, ts, hstep⟩ := step_cases s
  rw [hstep]
  cases agent with
  | host => exact hostStep_answers _
  | controller => exact controllerStep_answers (s := { s with turns := ts }) hok
  | radio m => exact ⟨_, rfl⟩

end Sys2Proof.Machine
end

section
/-! PROOFS. The command word and the host's writes: what a word decodes to, and that the host's step takes it. -/

namespace Sys2Proof.Machine

/-! ## The fields of a command word -/

/-- A word is its three fields (rule R82). -/
theorem commandWord_fields (w : Word) : commandWord (imm16Field w) (seqField w) (opcField w) = w := by
  unfold commandWord imm16Field seqField opcField
  rw [BitVec.extractLsb'_append_extractLsb'_eq_extractLsb' (by omega),
    BitVec.extractLsb'_append_extractLsb'_eq_extractLsb' (by omega)]
  simp

/-- Words with equal fields are equal (rule R82). -/
theorem word_ext {w x : Word} (hop : opcField w = opcField x) (hseq : seqField w = seqField x)
    (himm : imm16Field w = imm16Field x) : w = x := by
  rw [← commandWord_fields w, hop, hseq, himm, commandWord_fields]

/-- TRANSMIT's `onAirLength` is the low half of the immediate field (rules R82, R139). -/
theorem onAirField_eq (w : Word) : onAirField w = (imm16Field w).setWidth 8 := by
  ext i hi
  simp [onAirField, imm16Field, show i < 16 by omega]

/-- The immediate field with its upper byte cleared is TRANSMIT's `onAirLength`. -/
theorem imm16Field_and_low (w : Word) : imm16Field w &&& 0x00ff = (onAirField w).setWidth 16 := by
  apply BitVec.eq_of_toNat_eq
  have low : (imm16Field w).toNat &&& 255 = (imm16Field w).toNat % 256 := Nat.and_two_pow_sub_one_eq_mod _ 8
  have wide : (imm16Field w).toNat % 256 < 65536 := by omega
  simp [onAirField_eq, low, Nat.mod_eq_of_lt wide]

/-! ## Decoding -/

/-- The decoder reads every operand that fits its field back from the command's word (rules R82, R83). -/
theorem decode_encode {i : Instr} (hwf : i.wf = true) : decode (encode i) = .command i := by
  obtain ⟨hop, hseq, himm⟩ := Laws.CommandWord.encode_fields i hwf
  cases i with
  | configure n | nwkParseSechdr n =>
    have hn : n < 65536 := of_decide_eq_true hwf
    simp [decode, hop, himm, Instr.opcode, Instr.imm16Operand, Nat.mod_eq_of_lt hn]
  | _ => simp [decode, hop, hseq, himm, onAirField_eq, Instr.opcode, Instr.seqOperand, Instr.imm16Operand]

/-- Settles O1: the fields of a command's word are its opcode and its operands, and the decoder reads those. -/
theorem commandWordRoundTrip : Obligations.CommandWordRoundTrip :=
  fun _ hwf => decode_encode hwf

/-- A decoded command has a word, and its operands are the fields of the given word that it uses (rules R82, R83). -/
theorem operands_of_decode {w : Word} {i : Instr} (h : decode w = .command i) :
    i.wf = true ∧ i.seqOperand = seqField (w &&& usedBits i) ∧ i.imm16Operand = imm16Field (w &&& usedBits i) := by
  have seqAnd : ∀ x, seqField (w &&& x) = seqField w &&& seqField x := fun x => BitVec.extractLsb'_and
  have immAnd : ∀ x, imm16Field (w &&& x) = imm16Field w &&& imm16Field x := fun x => BitVec.extractLsb'_and
  have seqUnused : ∀ x, seqField x = 0#8 → 0 = seqField (w &&& x) := fun x hx => by
    rw [seqAnd, hx, BitVec.and_zero]; rfl
  have immUnused : ∀ x, imm16Field x = 0#16 → 0 = imm16Field (w &&& x) := fun x hx => by
    rw [immAnd, hx, BitVec.and_zero]; rfl
  have seqUsed : ∀ x, seqField x = BitVec.allOnes 8 → seqField w = seqField (w &&& x) := fun x hx => by
    rw [seqAnd, hx, BitVec.and_allOnes]
  have immUsed : ∀ x, imm16Field x = BitVec.allOnes 16 → imm16Field w = imm16Field (w &&& x) := fun x hx => by
    rw [immAnd, hx, BitVec.and_allOnes]
  have fits : fitsImm16 (imm16Field w).toNat = true := decide_eq_true (imm16Field w).isLt
  have natural : BitVec.ofNat 16 (imm16Field w).toNat = imm16Field w := by rw [BitVec.ofNat_toNat, BitVec.setWidth_eq]
  unfold decode at h
  split at h <;> cases h <;> simp only [usedBits]
  -- CONFIGURE and NWK_PARSE_SECHDR, NWK_PARSE_FCF, TRANSMIT, the commands with a sequence number, those with no operand
  case h_2 | h_16 => exact ⟨fits, seqUnused _ (by decide), natural.trans (immUsed _ (by decide))⟩
  case h_14 => exact ⟨rfl, seqUnused _ (by decide), immUsed _ (by decide)⟩
  case h_3 =>
    refine ⟨rfl, seqUnused _ (by decide), ?_⟩
    rw [immAnd]
    exact (imm16Field_and_low w).symm
  case h_5 | h_6 | h_7 | h_8 | h_12 => exact ⟨rfl, seqUsed _ (by decide), immUnused _ (by decide)⟩
  all_goals exact ⟨rfl, seqUnused _ (by decide), immUnused _ (by decide)⟩

/-- Settles O2: the command's own word and the given one with the unused bits cleared agree field by field. -/
theorem decodedCommandReencodes : Obligations.DecodedCommandReencodes := by
  intro w i h
  have hop : i.opcode = opcField w := (opcode_of_decode h).symm
  obtain ⟨hwf, hseq, himm⟩ := operands_of_decode h
  obtain ⟨eop, eseq, eimm⟩ := Laws.CommandWord.encode_fields i hwf
  refine ⟨hwf, hop, word_ext ?_ (eseq.trans hseq) (eimm.trans himm)⟩
  have whole : opcField (usedBits i) = BitVec.allOnes 8 := by
    unfold usedBits; split <;> decide
  calc
    opcField (encode i) = opcField w &&& opcField (usedBits i) := by rw [eop, hop, whole, BitVec.and_allOnes]
    _ = opcField (w &&& usedBits i) := BitVec.extractLsb'_and.symm

/-- A word is rejected, with its opcode, if rule R84 lists the opcode; every other word decodes to a command. -/
theorem decode_cases (w : Word) :
    (illegalOpc (opcField w) ∧ decode w = .reject (.illegalOpcode (opcField w))) ∨
      (¬ illegalOpc (opcField w) ∧ ∃ i, decode w = .command i) := by
  unfold decode illegalOpc
  generalize opcField w = o
  have hlt : o.toNat < 256 := o.isLt
  split
  case h_17 =>
    refine .inl ⟨?_, rfl⟩
    simp only [imp_false] at *
    omega
  all_goals exact .inr ⟨by omega, _, rfl⟩

/-- The host's write of a word that is no command halts a block that is ready (rule R259; log 33). -/
theorem writeCmd_reject {s : State} {w : Word} {x : Reject} (hr : ready s) (hd : decode w = .reject x) :
    writeCmd w s = .next (halt .illegalCommand { s with host := s.host.set (.cmd w) }) := by
  obtain ⟨hh, hs⟩ := hr
  simp only [writeCmd, hh, hs, hd]

/-- Settles O3: `decode_cases`, and the host's step with an illegal word is `writeCmd_reject`. -/
theorem illegalOpcodeHalts : Obligations.IllegalOpcodeHalts := by
  have rejected : ∀ w, illegalOpc (opcField w) → decode w = .reject (.illegalOpcode (opcField w)) :=
    fun w hill => (decode_cases w).elim And.right fun h => absurd hill h.1
  have accepted : ∀ w, ¬ illegalOpc (opcField w) → ∃ i, decode w = .command i :=
    fun w hlegal => (decode_cases w).elim (fun h => absurd h.1 hlegal) And.right
  refine ⟨fun w => ⟨rejected w, fun hrej => ?_⟩, accepted, fun s w q ts hr hq ht hill => ?_⟩
  · by_contra hlegal
    obtain ⟨i, hcmd⟩ := accepted w hlegal
    cases hrej.symm.trans hcmd
  · rw [step_listed ht]
    simp only [agentStep, hostStep, hq]
    exact writeCmd_reject (s := { s with turns := ts, hostQ := q }) hr (rejected w hill)

/-! ## The test vectors, and the host's other writes -/

/-- Settles O4: each word is decoded. -/
theorem sampleCommandWordsDecode : Obligations.SampleCommandWordsDecode := by
  unfold Obligations.SampleCommandWordsDecode
  decide

/-- Settles O9: `HostRegs.set` writes the one register, whichever it is. -/
theorem hostWritesItsRegisterOnly : Obligations.HostWritesItsRegisterOnly := by
  intro s v q ts hq ht hcmd
  rw [step_listed ht]
  simp only [agentStep, hostStep, hq]
  cases v with
  | cmd w => exact absurd rfl (hcmd w)
  | _ => rfl

end Sys2Proof.Machine
end

section
/-! PROOFS. The MAC codec: the bytes of a record, the frame control bit by bit, and what the decoder produces. -/

namespace Sys2Proof.Machine

/-! ## The encoder commands -/

/-- An encoder command, at its line, ends with the bytes of its record (rules R14, R255). -/
theorem oneStep_postFrame {s : State} {r : Run} (hr : runs s r .entry) (record : Run → MacFrame) :
    oneStep s (fun q => postFrame (record q) s) = .next (ended .ok (some (.bytes (encodeFrame (record r)))) s) := by
  obtain ⟨hh, hs, hl⟩ := hr
  exact oneStep_entry hh hs hl

/-- The bytes of a beacon request (rule R101). -/
theorem encodeFrame_beaconRequest (seq : Byte) :
    encodeFrame (beaconRequestRecord seq) = [0x03, 0x08, seq, 0xff, 0xff, 0xff, 0xff, 0x07] := by
  rw [encodeFrame, frameControl_beaconRequest]
  simp [beaconRequestRecord, dstBytes, srcBytes, addrBytes, panOf, contentBytes]
  rfl

/-- The bytes of an association request (rule R101). -/
theorem encodeFrame_assocRequest (seq : Byte) (ext : Dword) (dpan dshort : Half) (cap : Byte) :
    encodeFrame (assocRequestRecord seq ext dpan dshort cap) =
      [0x23, 0xc8, seq] ++ le16 dpan ++ le16 dshort ++ [0xff, 0xff] ++ le64 ext ++ [0x01, cap] := by
  rw [encodeFrame, frameControl_assocRequest]
  simp [assocRequestRecord, dstBytes, srcBytes, srcPanPresent, addrBytes, panOf, contentBytes]
  rfl

/-- The bytes of a data request without PAN ID compression (rule R101). -/
theorem encodeFrame_dataRequest (seq : Byte) (span : Half) (ext : Dword) (dpan dshort : Half) :
    encodeFrame (dataRequestRecord false seq span ext dpan dshort) =
      [0x23, 0xc8, seq] ++ le16 dpan ++ le16 dshort ++ le16 span ++ le64 ext ++ [0x04] := by
  rw [encodeFrame, frameControl_dataRequest]
  simp [dataRequestRecord, dstBytes, srcBytes, srcPanPresent, addrBytes, panOf, contentBytes]
  rfl

/-- The bytes of an acknowledgement (rule R101). -/
theorem encodeFrame_ack (seq : Byte) : encodeFrame (ackRecord seq) = [0x02, 0x00, seq] := by
  rw [encodeFrame, frameControl_ack]
  rfl

/-- Settles O33: `oneStep_postFrame` at each record, whose bytes are the four lemmas above. -/
theorem encodersPostTheirBytes : Obligations.EncodersPostTheirBytes := by
  intro s r seq hr
  refine ⟨?_, ?_, ?_, ?_⟩
  · rw [← encodeFrame_beaconRequest]
    exact oneStep_postFrame hr fun _ => beaconRequestRecord seq
  · rw [← encodeFrame_assocRequest]
    exact oneStep_postFrame hr fun q =>
      assocRequestRecord seq q.frame.ops.ext q.frame.ops.dpan q.frame.ops.dshort q.frame.ops.cap
  · rw [← encodeFrame_dataRequest]
    exact oneStep_postFrame hr fun q =>
      dataRequestRecord false seq q.frame.ops.span q.frame.ops.ext q.frame.ops.dpan q.frame.ops.dshort
  · rw [← encodeFrame_ack]
    exact oneStep_postFrame hr fun _ => ackRecord seq

/-! ## The frame control -/

/-- Words that agree on some bits agree on every field inside them. -/
theorem extractLsb'_congr {n : Nat} {x y : BitVec n} {a l : Nat} (h : x.extractLsb' a l = y.extractLsb' a l) {k w : Nat}
    (hk : a ≤ k) (hw : k + w ≤ a + l) : x.extractLsb' k w = y.extractLsb' k w := by
  ext i hi
  have hbit := congrArg (·.getLsbD (k - a + i)) h
  simp only [BitVec.getLsbD_extractLsb', show k - a + i < l by omega, show a + (k - a + i) = k + i by omega,
    decide_true, Bool.true_and] at hbit
  rwa [BitVec.getElem_extractLsb', BitVec.getElem_extractLsb']

/-- Words that agree on some bits agree on each of them. -/
theorem getLsbD_congr {n : Nat} {x y : BitVec n} {a l : Nat} (h : x.extractLsb' a l = y.extractLsb' a l) {k : Nat}
    (hk : a ≤ k) (hl : k < a + l) : x.getLsbD k = y.getLsbD k := by
  simpa using congrArg (·.getLsbD 0) (extractLsb'_congr h hk (w := 1) (by omega))

/-- The decoder reads nothing of bits 9:7 of the frame control (rules R91, R173). -/
theorem decodeFrame_congr {fc fc' : Half} (low : fc.extractLsb' 0 7 = fc'.extractLsb' 0 7)
    (high : fc.extractLsb' 10 6 = fc'.extractLsb' 10 6) :
    frameTypeOf (fc.extractLsb' 0 3) = frameTypeOf (fc'.extractLsb' 0 3) ∧ fcRejected fc = fcRejected fc' ∧
      decodeBody fc = decodeBody fc' := by
  have hbit : ∀ k < 7, fc.getLsbD k = fc'.getLsbD k := fun k hk => getLsbD_congr low (by omega) (by omega)
  have hdst : fcDstMode fc = fcDstMode fc' := extractLsb'_congr high (by omega) (by omega)
  have hver : fcVersion fc = fcVersion fc' := extractLsb'_congr high (by omega) (by omega)
  have hsrc : fcSrcMode fc = fcSrcMode fc' := extractLsb'_congr high (by omega) (by omega)
  refine ⟨congrArg _ (extractLsb'_congr low (by omega) (by omega)), ?_, ?_⟩
  · simp only [fcRejected, hbit, hdst, hver, hsrc, Nat.reduceLT]
  · funext t B
    simp only [decodeBody, hbit, hdst, hver, hsrc, Nat.reduceLT]

/-- The fields of a frame control put together from its fields (rule R91), from bit 0 up. -/
theorem extract_frameControl (sm ver dm : BitVec 2) (z : BitVec 3) (pic ack pend sec : BitVec 1) (t : BitVec 3)
    {fc : BitVec (2 + 2 + 2 + 3 + 1 + 1 + 1 + 1 + 3)}
    (h : fc = sm ++ ver ++ dm ++ z ++ pic ++ ack ++ pend ++ sec ++ t) :
    fc.extractLsb' 0 3 = t ∧ fc.extractLsb' 3 1 = sec ∧ fc.extractLsb' 4 1 = pend ∧ fc.extractLsb' 5 1 = ack ∧
      fc.extractLsb' 6 1 = pic ∧ fc.extractLsb' 7 3 = z ∧ fc.extractLsb' 10 2 = dm ∧ fc.extractLsb' 12 2 = ver ∧
      fc.extractLsb' 14 2 = sm := by
  subst h
  refine ⟨?_, ?_, ?_, ?_, ?_, ?_, ?_, ?_, ?_⟩ <;>
    simp (disch := omega) only [extract_append_high, extract_append_low, Nat.reduceSub, Nat.sub_self,
      BitVec.extractLsb'_eq_self]

/-- The bit of a one-bit field is the flag it carries (rule R172). -/
theorem getLsbD_of_extract_bit {n k : Nat} {x : BitVec n} {b : Bool} (h : x.extractLsb' k 1 = bit b) :
    x.getLsbD k = b := by
  have hbit := congrArg (·.getLsbD 0) h
  cases b <;> simpa [bit] using hbit

/-- The addressing mode's code is the encoder's (rules R93, R171). -/
theorem addrModeCode_eq (a : Addr) : addrModeCode a = modeOf a := by
  cases a <;> rfl

/-- What a frame control carries, in the encoder's and the decoder's words. -/
theorem fcCarries_iff {fc : Half} {m : MacFrame} :
    fcCarries fc m ↔ fc.extractLsb' 0 3 = typeCode m.frameType ∧ fc.getLsbD 3 = m.security ∧
      fc.getLsbD 4 = m.framePending ∧ fc.getLsbD 5 = m.ackRequest ∧ fc.getLsbD 6 = m.panIdCompress ∧
      fcDstMode fc = modeOf m.dst ∧ fcVersion fc = m.frameVersion ∧ fcSrcMode fc = modeOf m.src := by
  unfold fcCarries
  rw [addrModeCode_eq, addrModeCode_eq]
  cases m.frameType <;> rfl

/-- The frame control of a record carries its fields, bit by bit, with the reserved bits zero (rules R91, R172). -/
theorem frameControl_carries (m : MacFrame) : fcCarries (frameControl m) m ∧ (frameControl m).extractLsb' 7 3 = 0 := by
  obtain ⟨ht, hsec, hpend, hack, hpic, hz, hdm, hver, hsm⟩ :=
    extract_frameControl (fc := frameControl m) _ _ _ _ _ _ _ _ _ rfl
  exact ⟨fcCarries_iff.mpr ⟨ht, getLsbD_of_extract_bit hsec, getLsbD_of_extract_bit hpend, getLsbD_of_extract_bit hack,
    getLsbD_of_extract_bit hpic, hdm, hver, hsm⟩, hz⟩

/-! ## The bytes of a record -/

/-- The addressing fields are the encoder's (rules R95, R96, R172). -/
theorem addressingWire_eq (m : MacFrame) : addressingWire m = dstBytes m ++ srcBytes m := by
  unfold addressingWire dstBytes srcBytes srcPanPresent
  cases m.dst <;> cases m.src <;> cases m.panIdCompress <;> simp [panOf, addrBytes]

/-- The content's bytes are the encoder's (rules R97, R98, R100, R171). -/
theorem contentWire_eq (c : Content) : contentWire c = contentBytes c := by
  cases c with
  | associationResponse a t => cases t <;> rfl
  | _ => rfl

/-! ## What the decoder produces -/

/-- A frame type's name stands for its code (rule R92). -/
theorem typeCode_of_frameTypeOf {t : BitVec 3} {f : FrameType} (h : frameTypeOf t = some f) : t = typeCode f := by
  have hcode : ∀ n, t.toNat = n → t = BitVec.ofNat 3 n := fun n hn => by
    rw [← hn, BitVec.ofNat_toNat, BitVec.setWidth_eq]
  unfold frameTypeOf at h
  split at h <;> cases h <;> exact hcode _ ‹_›

/-- What the frame-control tests let through (rule R173). -/
theorem fcRejected_eq_false {fc : Half} (h : fcRejected fc = false) :
    fc.getLsbD 3 = false ∧ fcDstMode fc ≠ 1 ∧ fcSrcMode fc ≠ 1 ∧ fcVersion fc ∈ Config.acceptedVersions ∧
      (fc.getLsbD 6 = true → fcDstMode fc = 0 → fcSrcMode fc = 0) := by
  have hver : Params.spec.acceptedVersions = Config.acceptedVersions := rfl
  simp only [fcRejected, hver, Bool.or_eq_false_iff, Bool.and_eq_false_imp, decide_eq_false_iff_not, Bool.not_eq_false',
    List.contains_iff_mem, decide_eq_true_eq, not_not, Bool.and_eq_true, and_imp] at h
  obtain ⟨⟨⟨⟨hsec, hdst⟩, hsrc⟩, hacc⟩, hpic⟩ := h
  exact ⟨hsec, hdst, hsrc, hacc, hpic⟩

/-- An address is absent where its mode is 0 (rule R93). -/
theorem modeOf_eq_zero {a : Addr} : modeOf a = 0 ↔ a = .none := by
  cases a <;> simp [modeOf]

/-- An address read has the mode and the PAN it was read under (rule R173). -/
theorem takeAddr_eq_some {mode : BitVec 2} {pan : Half} {B : Bytes} {r : Addr × Bytes} (h0 : mode ≠ 0) (h1 : mode ≠ 1)
    (h : takeAddr mode pan B = some r) : modeOf r.1 = mode ∧ panOf r.1 = pan := by
  unfold takeAddr at h
  split at h <;> obtain ⟨v, -, rfl⟩ := Option.map_eq_some_iff.mp h
  case isTrue h2 => exact ⟨h2.symm, rfl⟩
  case isFalse h2 =>
    have h3 : mode = 3 := by bv_omega
    exact ⟨h3.symm, rfl⟩

/-- The destination read has the mode that the frame control gives (rule R173). -/
theorem takeDst_eq_some {dm : BitVec 2} {B : Bytes} {d : Addr × Bytes} (h1 : dm ≠ 1) (h : takeDst dm B = some d) :
    modeOf d.1 = dm := by
  unfold takeDst at h
  split at h
  case isTrue h0 => cases h; exact h0.symm
  case isFalse h0 =>
    obtain ⟨pan, -, ha⟩ := Option.bind_eq_some_iff.mp h
    exact (takeAddr_eq_some h0 h1 ha).1

/-- The source read has the mode that the frame control gives, and under PAN ID compression the destination's PAN (rules
R95, R173). -/
theorem takeSrc_eq_some {sm : BitVec 2} {pic : Bool} {dst : Addr} {B : Bytes} {a : Addr × Bytes} (h1 : sm ≠ 1)
    (h : takeSrc sm pic dst B = some a) : modeOf a.1 = sm ∧ (pic = true → a.1 ≠ .none → panOf a.1 = panOf dst) := by
  unfold takeSrc at h
  split at h
  case isTrue h0 => cases h; exact ⟨h0.symm, fun _ hne => absurd rfl hne⟩
  case isFalse h0 =>
    cases pic with
    | true =>
      obtain ⟨hmode, hpan⟩ := takeAddr_eq_some h0 h1 h
      exact ⟨hmode, fun _ _ => hpan⟩
    | false =>
      obtain ⟨pan, -, ha⟩ := Option.bind_eq_some_iff.mp h
      exact ⟨(takeAddr_eq_some h0 h1 ha).1, nofun⟩

/-- The content of a command frame is one of the four commands' (rule R97). -/
theorem takeCommand_eq_some {id : Byte} {B : Bytes} {c : Content × Bytes} (h : takeCommand id B = some c) :
    c.1 = .beaconRequest ∨ c.1 = .dataRequest ∨ (∃ cap, c.1 = .associationRequest cap) ∨
      ∃ a t, c.1 = .associationResponse a t := by
  unfold takeCommand at h
  split at h
  case h_1 => obtain ⟨v, -, rfl⟩ := Option.map_eq_some_iff.mp h; simp
  case h_2 =>
    obtain ⟨v, -, h⟩ := Option.bind_eq_some_iff.mp h
    obtain ⟨w, -, h⟩ := Option.bind_eq_some_iff.mp h
    obtain ⟨t, -, rfl⟩ := Option.map_eq_some_iff.mp h
    simp
  case h_3 => cases h; simp
  case h_4 => cases h; simp
  case h_5 => cases h

/-- A record whose content was read for its frame type is consistent (rules R170, R173). -/
theorem consistent_of_takeContent {m : MacFrame} {B r : Bytes} (h : takeContent m.frameType B = some (m.content, r)) :
    m.consistent = true := by
  unfold MacFrame.consistent
  cases ht : m.frameType with rw [ht, takeContent] at h
  | command =>
    obtain ⟨id, -, hc⟩ := Option.bind_eq_some_iff.mp h
    rcases takeCommand_eq_some hc with hc | hc | ⟨_, hc⟩ | ⟨_, _, hc⟩ <;> simp only at hc <;> rw [hc]
  | _ =>
    obtain ⟨hc, -⟩ := Prod.mk.inj (Option.some.inj h)
    rw [← hc]

/-- A record read under a frame control that the tests let through is one the decoder can produce, carries the frame
control's fields, and has the first byte read as its sequence number (rules R173, R174). -/
theorem decodeBody_eq_some {fc : Half} {t : FrameType} {B : Bytes} {m : MacFrame} (hrej : fcRejected fc = false)
    (ht : frameTypeOf (fc.extractLsb' 0 3) = some t) (h : decodeBody fc t B = some m) :
    decodable m ∧ fcCarries fc m ∧ ∃ rest, B = m.seq :: rest := by
  obtain ⟨hsec, hdm, hsm, hver, hpic⟩ := fcRejected_eq_false hrej
  obtain ⟨sq, hsq, h⟩ := Option.bind_eq_some_iff.mp h
  obtain ⟨d, hd, h⟩ := Option.bind_eq_some_iff.mp h
  obtain ⟨a, ha, h⟩ := Option.bind_eq_some_iff.mp h
  obtain ⟨c, hc, rfl⟩ := Option.map_eq_some_iff.mp h
  have hdst := takeDst_eq_some hdm hd
  obtain ⟨hsrc, hpan⟩ := takeSrc_eq_some hsm ha
  refine ⟨⟨consistent_of_takeContent hc, rfl, hver, ?_, fun hp _ => hpan hp⟩, fcCarries_iff.mpr ?_, sq.2,
    takeU8_eq_some hsq⟩
  · rintro ⟨hp, hd0, hs0⟩
    have hdst0 : fcDstMode fc = 0 := hdst.symm.trans (modeOf_eq_zero.mpr hd0)
    exact hs0 (modeOf_eq_zero.mp (hsrc.trans (hpic hp hdst0)))
  · exact ⟨typeCode_of_frameTypeOf ht, hsec, rfl, rfl, rfl, hdst.symm, rfl, hsrc.symm⟩

/-- Settles O37: `decodeBody_eq_some`, `decodeFrame_congr` and `frameControl_carries`. -/
theorem macDecodedIsDecodable : Obligations.MacDecodedIsDecodable := by
  refine ⟨fun B m h => ?_, fun a b a' b' rest hlow hhigh => ?_, fun m => ?_⟩
  · obtain ⟨⟨fc, rest⟩, hfc, h⟩ := Option.bind_eq_some_iff.mp h
    obtain ⟨t, ht, h⟩ := Option.bind_eq_some_iff.mp h
    split at h
    case isTrue => cases h
    case isFalse hrej =>
      obtain ⟨hm, hcarries, tail, hseq⟩ := decodeBody_eq_some (by simpa using hrej) ht h
      refine ⟨hm, fc.extractLsb' 0 8, fc.extractLsb' 8 8, tail, ?_, by rwa [join16]⟩
      rw [takeU16_eq_some hfc, hseq]
      rfl
  · obtain ⟨htype, hrej, hbody⟩ := decodeFrame_congr hlow hhigh
    simp only [decodeFrame, takeU16, Option.bind_some, htype, hrej, hbody]
  · obtain ⟨hfc, hz⟩ := frameControl_carries m
    refine ⟨frameControl m, hfc, hz, ?_⟩
    rw [addressingWire_eq, contentWire_eq, encodeFrame, List.append_assoc]
    rfl

end Sys2Proof.Machine
end

section
/-! PROOFS. The NWK codec: what a security header and a packet are on the wire, and that the parser reads just that. -/

namespace Sys2Proof.Machine

/-! ## Optional fields -/

/-- An optional field laid out where its flag asks for it reads as itself (rules R112, R113). -/
theorem takeIf_append {α : Type} {take : Bytes → Option (α × Bytes)} {wire : α → Bytes}
    (htake : ∀ v r, take (wire v ++ r) = some (v, r)) (present : Bool) (v : α) (r : Bytes) :
    takeIf present take ((if present then wire v else []) ++ r) = some (if present then some v else none, r) := by
  cases present with
  | true => simp [takeIf, htake]
  | false => simp [takeIf]

/-- An optional field read stands on the wire where its flag asks for it, and nothing does where it does not. -/
theorem takeIf_layout {α : Type} {take : Bytes → Option (α × Bytes)} {wire : α → Bytes} [Inhabited α]
    (htake : ∀ {B p}, take B = some p → B = wire p.1 ++ p.2) {present : Bool} {B : Bytes} {p : Option α × Bytes}
    (h : takeIf present take B = some p) :
    ∃ v, B = (if present then wire v else []) ++ p.2 ∧ p.1 = if present then some v else none := by
  rcases takeIf_eq_some h with ⟨rfl, v, hv, hp⟩ | ⟨rfl, rfl⟩
  · exact ⟨v, htake hv, hp⟩
  · exact ⟨default, rfl, rfl⟩

/-! ## The security header -/

/-- What a security header reads as, in the parser's words (rules R114, R234). -/
theorem secHeaderRead_eq (c : Byte) (fcnt : Word) (xsrc : Dword) (ksn : Byte) (mic : Bytes) :
    secHeaderRead c fcnt xsrc ksn mic =
      { keyIdentifier := keyIdentifierOf c
        extendedNonce := extendedNonceOf c
        usingEncryption := true
        micLength := Params.spec.micLen
        frameCounter := fcnt
        extendedSource := if extendedNonceOf c then some xsrc else none
        keySequence := ksn
        mic := mic } := by
  have key : (secHeaderRead c fcnt xsrc ksn mic).keyIdentifier = keyIdentifierOf c := by
    have hhigh : c.getLsbD 4 = (c.extractLsb' 3 2).getLsbD 1 := by simp
    have hlow : c.getLsbD 3 = (c.extractLsb' 3 2).getLsbD 0 := by simp
    simp only [secHeaderRead, keyIdentifierOf, hhigh, hlow]
    generalize c.extractLsb' 3 2 = k
    revert k
    decide
  rw [← key]
  rfl

/-- A security header's bytes: as many as its control byte asks for (rule R113). -/
@[simp] theorem length_secHeaderWire (c : Byte) (fcnt : Word) (xsrc : Dword) (ksn : Byte) :
    (secHeaderWire c fcnt xsrc ksn).length = secHdrLength (extendedNonceOf c) := by
  unfold secHeaderWire secHdrLength extendedNonceOf
  cases c.getLsbD 5 <;> rfl

/-- A security header laid out from `start` on parses to its fields (rules R113, R234). -/
theorem parseSecHdr_of_layout {B post : Bytes} {start : Nat} {c : Byte} {fcnt : Word} {xsrc : Dword} {ksn : Byte}
    (hB : B.drop start = secHeaderWire c fcnt xsrc ksn ++ post) :
    parseSecHdr B start = some (secHeaderRead c fcnt xsrc ksn (B.drop (B.length - 4)),
      start + (secHeaderWire c fcnt xsrc ksn).length) := by
  have hlen : 4 ≤ B.length := by
    have hdrop := congrArg List.length hB
    rw [List.length_drop, List.length_append, length_secHeaderWire, secHdrLength] at hdrop
    split at hdrop <;> omega
  have hxsrc := takeIf_append takeU64_le64 (extendedNonceOf c) xsrc (ksn :: post)
  have hwire : B.drop start =
      c :: (le32 fcnt ++ ((if extendedNonceOf c then le64 xsrc else []) ++ ksn :: post)) := by
    simp [hB, secHeaderWire, extendedNonceOf]
  rw [length_secHeaderWire, secHeaderRead_eq, parseSecHdr, hwire]
  simp only [takeU8_cons, takeU32_le32, Option.bind_some, hxsrc]
  exact if_neg (Nat.not_lt.mpr hlen)

/-- A packet that parses with a security header from `start` on has one laid out there (rules R113, R234). -/
theorem layout_of_parseSecHdr {B : Bytes} {start : Nat} {x : SecurityHeader × Nat} (h : parseSecHdr B start = some x) :
    ∃ c fcnt xsrc ksn post, B.drop start = secHeaderWire c fcnt xsrc ksn ++ post ∧
      x = (secHeaderRead c fcnt xsrc ksn (B.drop (B.length - 4)), start + (secHeaderWire c fcnt xsrc ksn).length) := by
  obtain ⟨c, hc, h⟩ := Option.bind_eq_some_iff.mp h
  obtain ⟨fcnt, hfcnt, h⟩ := Option.bind_eq_some_iff.mp h
  obtain ⟨nsrc, hnsrc, h⟩ := Option.bind_eq_some_iff.mp h
  obtain ⟨ksn, hksn, h⟩ := Option.bind_eq_some_iff.mp h
  obtain ⟨xsrc, hlayout, hread⟩ := takeIf_layout takeU64_eq_some hnsrc
  split at h <;> cases h
  refine ⟨c.1, fcnt.1, xsrc, ksn.1, ksn.2, ?_, ?_⟩
  · rw [takeU8_eq_some hc, takeU32_eq_some hfcnt, hlayout, takeU8_eq_some hksn]
    simp [secHeaderWire, extendedNonceOf]
  · rw [hread, secHeaderRead_eq, length_secHeaderWire]
    rfl

/-- Settles O39: what is laid out parses; what parses is laid out, so it is not cut short. -/
theorem securityHeaderParses : Obligations.SecurityHeaderParses := by
  refine ⟨fun pre post c ksn fcnt xsrc => parseSecHdr_of_layout List.drop_left, fun B p c hc hshort => ?_,
    fun B p hp => ?_⟩
  · by_contra hne
    obtain ⟨x, hx⟩ := Option.ne_none_iff_exists'.mp hne
    obtain ⟨c', fcnt, xsrc, ksn, post, hB, -⟩ := layout_of_parseSecHdr hx
    have hlen := congrArg List.length hB
    rw [List.length_drop, List.length_append, length_secHeaderWire] at hlen
    have hfirst : c' = c := by
      have h0 := congrArg (·[0]?) hB
      simp [hc, secHeaderWire] at h0
      exact h0.symm
    subst hfirst
    change B.length - p = (if c'.getLsbD 5 then 14 else 6) + post.length at hlen
    omega
  · rw [parseSecHdr, List.drop_eq_nil_of_le hp]
    rfl

/-! ## The packet -/

/-- A source route laid out where its flag asks for it is skipped whole (rules R112, R237). -/
theorem skipSourceRoute_append (present : Bool) (idx : Byte) {relays : Bytes} (hn : relays.length ≤ 255) (r : Bytes) :
    skipSourceRoute present ((if present then BitVec.ofNat 8 relays.length :: idx :: relays else []) ++ r) =
      some r := by
  cases present with
  | false => rfl
  | true =>
    have hcount : (BitVec.ofNat 8 relays.length).toNat = relays.length := by
      rw [BitVec.toNat_ofNat]; omega
    simp [skipSourceRoute, hcount, skipBytes]

/-- The bytes skipped as a source route are a relay count, an index and as many relays, where the flag asks for one. -/
theorem skipSourceRoute_layout {present : Bool} {B r : Bytes} (h : skipSourceRoute present B = some r) :
    ∃ idx relays, relays.length ≤ 255 ∧
      B = (if present then BitVec.ofNat 8 relays.length :: idx :: relays else []) ++ r := by
  unfold skipSourceRoute at h
  split at h
  case isFalse hp => cases h; exact ⟨0, [], by simp, by simp [hp]⟩
  case isTrue hp =>
    obtain ⟨n, hn, h⟩ := Option.bind_eq_some_iff.mp h
    obtain ⟨idx, hidx, h⟩ := Option.bind_eq_some_iff.mp h
    obtain ⟨hle, hrelays⟩ := skipBytes_eq_some h
    have hcount : (idx.2.take n.1.toNat).length = n.1.toNat := List.length_take_of_le hle
    have hlt : n.1.toNat < 256 := n.1.isLt
    refine ⟨idx.1, idx.2.take n.1.toNat, by omega, ?_⟩
    rw [takeU8_eq_some hn, takeU8_eq_some hidx, hcount, BitVec.ofNat_toNat, BitVec.setWidth_eq]
    simp [hp, ← hrelays]

/-- A packet whose header is laid out on the wire parses to the header's fields and what `parseTail` reads after it
(rules R110 to R112, R237). -/
theorem parsePacket_of_layout {fc dst src : Half} {radius seq : Byte} {xdst xsrc : Dword} {mc idx : Byte}
    {relays : Bytes} (hn : relays.length ≤ 255) (rest : Bytes) :
    parsePacket (nwkHeaderWire fc dst src radius seq xdst xsrc mc idx relays ++ rest) =
      (parseTail (fc.getLsbD 9) (nwkHeaderWire fc dst src radius seq xdst xsrc mc idx relays ++ rest)
        (nwkHeaderWire fc dst src radius seq xdst xsrc mc idx relays).length).map fun t =>
          nwkRead fc dst src radius seq xdst xsrc mc t.1 t.2 := by
  set B := nwkHeaderWire fc dst src radius seq xdst xsrc mc idx relays ++ rest with hB
  have hcursor : B.length - rest.length = (nwkHeaderWire fc dst src radius seq xdst xsrc mc idx relays).length := by
    rw [hB, List.length_append, Nat.add_sub_cancel]
  have hwire : B = le16 fc ++ (le16 dst ++ (le16 src ++ (radius :: seq :: ((if fc.getLsbD 11 then le64 xdst else []) ++
      ((if fc.getLsbD 12 then le64 xsrc else []) ++ ((if fc.getLsbD 8 then [mc] else []) ++
        ((if fc.getLsbD 10 then BitVec.ofNat 8 relays.length :: idx :: relays else []) ++ rest))))))) := by
    simp [hB, nwkHeaderWire]
  rw [← hcursor]
  clear_value B
  have hxdst := takeIf_append takeU64_le64 (fc.getLsbD 11) xdst
  have hxsrc := takeIf_append takeU64_le64 (fc.getLsbD 12) xsrc
  have hmc := takeIf_append (wire := fun b => [b]) takeU8_cons (fc.getLsbD 8) mc
  have hroute := skipSourceRoute_append (fc.getLsbD 10) idx hn rest
  have hfc : takeU16 B = some (fc, _) := hwire ▸ takeU16_le16 _ _
  unfold parsePacket
  simp only [hfc, takeU16_le16, takeU8_cons, Option.bind_some, parseFcf, hxdst, hxsrc, hmc, hroute]
  rfl

/-- A packet that parses has its header laid out on the wire, and is read as the header's fields and what `parseTail`
reads after it. -/
theorem layout_of_parsePacket {B : Bytes} {f : NwkFrame} (h : parsePacket B = some f) :
    ∃ fc dst src radius seq xdst xsrc mc idx relays rest t, relays.length ≤ 255 ∧
      B = nwkHeaderWire fc dst src radius seq xdst xsrc mc idx relays ++ rest ∧
      parseTail (fc.getLsbD 9) B (nwkHeaderWire fc dst src radius seq xdst xsrc mc idx relays).length = some t ∧
      f = nwkRead fc dst src radius seq xdst xsrc mc t.1 t.2 := by
  obtain ⟨fc, hfc, h⟩ := Option.bind_eq_some_iff.mp h
  obtain ⟨dst, hdst, h⟩ := Option.bind_eq_some_iff.mp h
  obtain ⟨src, hsrc, h⟩ := Option.bind_eq_some_iff.mp h
  obtain ⟨radius, hradius, h⟩ := Option.bind_eq_some_iff.mp h
  obtain ⟨seq, hseq, h⟩ := Option.bind_eq_some_iff.mp h
  obtain ⟨odst, hodst, h⟩ := Option.bind_eq_some_iff.mp h
  obtain ⟨osrc, hosrc, h⟩ := Option.bind_eq_some_iff.mp h
  obtain ⟨omc, homc, h⟩ := Option.bind_eq_some_iff.mp h
  obtain ⟨rest, hroute, h⟩ := Option.bind_eq_some_iff.mp h
  obtain ⟨t, ht, rfl⟩ := Option.map_eq_some_iff.mp h
  obtain ⟨xdst, lxdst, rxdst⟩ := takeIf_layout takeU64_eq_some hodst
  obtain ⟨xsrc, lxsrc, rxsrc⟩ := takeIf_layout takeU64_eq_some hosrc
  obtain ⟨mc, lmc, rmc⟩ := takeIf_layout (wire := fun b => [b]) takeU8_eq_some homc
  obtain ⟨idx, relays, hn, lroute⟩ := skipSourceRoute_layout hroute
  have hB : B = nwkHeaderWire fc.1 dst.1 src.1 radius.1 seq.1 xdst xsrc mc idx relays ++ rest := by
    rw [takeU16_eq_some hfc, takeU16_eq_some hdst, takeU16_eq_some hsrc, takeU8_eq_some hradius, takeU8_eq_some hseq,
      lxdst, lxsrc, lmc, lroute]
    simp [nwkHeaderWire, parseFcf]
  refine ⟨fc.1, dst.1, src.1, radius.1, seq.1, xdst, xsrc, mc, idx, relays, rest, t, hn, hB, ?_, ?_⟩
  · rwa [hB, List.length_append, Nat.add_sub_cancel, ← hB] at ht
  · rw [rxdst, rxsrc, rmc]
    rfl

/-! ## Payload and MIC -/

/-- A secured packet's tail, laid out on the wire, parses to its security header, its payload and its MIC (rules R113,
R115, R237). -/
theorem parseTail_of_layout (pre payload : Bytes) (c : Byte) (fcnt : Word) (xsrc : Dword) (ksn : Byte) {mic : Bytes}
    (hmic : mic.length = 4) :
    parseTail true (pre ++ (secHeaderWire c fcnt xsrc ksn ++ (payload ++ mic))) pre.length =
      some (some (secHeaderRead c fcnt xsrc ksn mic), payload) := by
  set wire := secHeaderWire c fcnt xsrc ksn with hwire
  set B := pre ++ (wire ++ (payload ++ mic)) with hB
  have hlen : B.length = pre.length + wire.length + payload.length + 4 := by
    simp only [hB, List.length_append, hmic]; omega
  have hlast : B.drop (B.length - 4) = mic := by
    have hfront : B = (pre ++ wire ++ payload) ++ mic := by simp [hB]
    rw [hlen, hfront]
    exact List.drop_left' (by simp only [List.length_append]; omega)
  have hafter : B.drop (pre.length + wire.length) = payload ++ mic := by
    have hfront : B = (pre ++ wire) ++ (payload ++ mic) := by simp [hB]
    rw [hfront]
    exact List.drop_left' (by simp)
  have hhdr := parseSecHdr_of_layout (B := B) (start := pre.length) (hB ▸ List.drop_left)
  rw [hlast, ← hwire] at hhdr
  have hroom : ¬ B.length - (pre.length + wire.length) < 4 := by omega
  have hpayload : B.length - (pre.length + wire.length) - 4 = payload.length := by omega
  simp only [parseTail, if_true, hhdr, Option.bind_some, show Params.spec.micLen = 4 from rfl, hroom, if_false, hafter,
    hpayload, List.take_left]

/-- A secured packet's tail that parses: its security header, whose MIC is the packet's last four bytes, and the payload
between the two (rules R115, R237). -/
theorem parseTail_secured_eq_some {B : Bytes} {cursor : Nat} {t : Option SecurityHeader × Bytes}
    (h : parseTail true B cursor = some t) :
    ∃ c fcnt xsrc ksn e, t.1 = some (secHeaderRead c fcnt xsrc ksn (B.drop (B.length - 4))) ∧ 4 ≤ B.length - e ∧
      t.2 = (B.drop e).take (B.length - e - 4) := by
  obtain ⟨x, hx, h⟩ := Option.bind_eq_some_iff.mp h
  obtain ⟨c, fcnt, xsrc, ksn, post, -, rfl⟩ := layout_of_parseSecHdr hx
  split at h <;> cases h
  case isFalse hroom => exact ⟨c, fcnt, xsrc, ksn, _, rfl, Nat.not_lt.mp hroom, rfl⟩

/-- An unsecured packet has no security header, and its payload is what follows its header (rule R237). -/
theorem parseTail_unsecured (B : Bytes) (cursor : Nat) : parseTail false B cursor = some (none, B.drop cursor) := rfl

/-- Settles O40: `parseTail_secured_eq_some`; the payload ends where the MIC begins. -/
theorem securedPacketTail : Obligations.SecuredPacketTail := by
  intro B f h hf hh
  obtain ⟨fc, dst, src, radius, seq, xdst, xsrc, mc, idx, relays, rest, t, -, -, ht, rfl⟩ := layout_of_parsePacket hf
  cases hsec : fc.getLsbD 9 with rw [hsec] at ht
  | false => cases ht; cases hh
  | true =>
    obtain ⟨c, fcnt, nsrc, ksn, e, hhdr, hroom, hpayload⟩ := parseTail_secured_eq_some ht
    cases hhdr.symm.trans hh
    refine ⟨rfl, ?_, B.take e, ?_⟩
    · change (B.drop (B.length - 4)).length = 4
      rw [List.length_drop]
      omega
    · change B.take e ++ (t.2 ++ B.drop (B.length - 4)) = B
      have hlast : B.drop (B.length - 4) = (B.drop e).drop (B.length - e - 4) := by
        rw [List.drop_drop]
        congr 1
        omega
      rw [hpayload, hlast, List.take_append_drop, List.take_append_drop]

/-- Settles O41: the layout parses by `parsePacket_of_layout`, and what parses is laid out. -/
theorem nwkOptionalFieldsFollowFlags : Obligations.NwkOptionalFieldsFollowFlags := by
  refine ⟨fun fc dst src radius seq xdst xsrc mc idx relays payload hn =>
    ⟨fun hsec => ?_, fun c ksn fcnt nsrc mic hsec hmic => ?_⟩, fun B f hf => ?_⟩
  · rw [parsePacket_of_layout hn, hsec, parseTail_unsecured, List.drop_left]
    rfl
  · rw [parsePacket_of_layout hn, hsec, parseTail_of_layout _ _ _ _ _ _ hmic]
    rfl
  · obtain ⟨fc, dst, src, radius, seq, xdst, xsrc, mc, idx, relays, rest, t, -, -, ht, rfl⟩ := layout_of_parsePacket hf
    have hopt : ∀ {α : Type} (b : Bool) (v : α), (if b then some v else none).isSome = b :=
      fun b v => by cases b <;> rfl
    refine ⟨hopt _ _, hopt _ _, hopt _ _, ?_⟩
    change t.1.isSome = fc.getLsbD 9 ∧ ∀ h, t.1 = some h → h.extendedSource.isSome = h.extendedNonce
    cases hsec : fc.getLsbD 9 with rw [hsec] at ht
    | false => cases ht; exact ⟨rfl, nofun⟩
    | true =>
      obtain ⟨c, fcnt, nsrc, ksn, e, hhdr, -, -⟩ := parseTail_secured_eq_some ht
      rw [hhdr]
      refine ⟨rfl, fun h hh => ?_⟩
      cases hh
      exact hopt _ _

end Sys2Proof.Machine
end

section
/-! PROOFS. The radio: what each transition does when it is enabled and when it is not, and what no step of any agent
does to the radio's state. -/

namespace Sys2Proof.Machine

/-! ## The transitions -/

/-- TXEN taken while pending, under `Either` (rule R162). -/
theorem takeTxen_pending {s : State} (c : Bool) (h : s.pending.txen = true) :
    takeTxen .either c s = { s with
      pending := { s.pending with txen := false }
      rstate := if s.rstate = .disabled ∨ (s.rstate = .rxIdle ∧ c = true) then .txRampUp else s.rstate } := by
  cases hs : s.rstate with
  | rxIdle => cases c <;> simp [takeTxen, h, hs, CrossIdle.accepts]
  | _ => simp [takeTxen, h, hs]

/-- RXEN taken while pending, under `Either` (rule R163). -/
theorem takeRxen_pending {s : State} (c : Bool) (h : s.pending.rxen = true) :
    takeRxen .either c s = { s with
      pending := { s.pending with rxen := false }
      rstate := if s.rstate = .disabled ∨ (s.rstate = .txIdle ∧ c = true) then .rxRampUp else s.rstate } := by
  cases hs : s.rstate with
  | txIdle => cases c <;> simp [takeRxen, h, hs, CrossIdle.accepts]
  | _ => simp [takeRxen, h, hs]

/-- With TXEN not pending there is nothing to take (log 27). -/
theorem takeTxen_of_not_pending {s : State} (x : CrossIdle) (c : Bool) (h : s.pending.txen = false) :
    takeTxen x c s = s := by
  simp [takeTxen, h]

/-- With RXEN not pending there is nothing to take (log 27). -/
theorem takeRxen_of_not_pending {s : State} (x : CrossIdle) (c : Bool) (h : s.pending.rxen = false) :
    takeRxen x c s = s := by
  simp [takeRxen, h]

/-- With START not pending there is nothing to take (log 27). -/
theorem takeStart_of_not_pending {s : State} (h : s.pending.start = false) : takeStart s = s := by
  simp [takeStart, h]

/-- START taken in TxIdle begins a transmission (rule R166). -/
theorem takeStart_txIdle {s : State} (h : s.pending.start = true) (hs : s.rstate = .txIdle) :
    takeStart s = { s with
      pending := { s.pending with start := false }
      rstate := .tx
      txLen := s.buf.read 0
      txImage := s.buf
      txDirty := []
      airConf := airConfigured s.radio } := by
  simp [takeStart, acceptStart, h, hs]

/-- START taken in RxIdle begins a reception (rule R166). -/
theorem takeStart_rxIdle {s : State} (h : s.pending.start = true) (hs : s.rstate = .rxIdle) :
    takeStart s = { s with
      pending := { s.pending with start := false }
      rstate := .rx
      airConf := airConfigured s.radio } := by
  simp [takeStart, acceptStart, h, hs]

/-- START taken in any state but the Idle ones is dropped (rule R166). -/
theorem takeStart_dropped {s : State} (h : s.pending.start = true) (htx : s.rstate ≠ .txIdle)
    (hrx : s.rstate ≠ .rxIdle) : takeStart s = { s with pending := { s.pending with start := false } } := by
  cases hs : s.rstate with
  | txIdle => exact absurd hs htx
  | rxIdle => exact absurd hs hrx
  | _ => simp [takeStart, acceptStart, h, hs]

/-- With no ramp-up running there is none to end (log 27). -/
theorem rampUp_of_none {s : State} (htx : s.rstate ≠ .txRampUp) (hrx : s.rstate ≠ .rxRampUp) : rampUp s = s := by
  unfold rampUp
  split
  · exact absurd ‹_› htx
  · exact absurd ‹_› hrx
  · rfl

/-- The end of a running transmission (rule R165). -/
theorem txEnd_tx {s : State} (h : s.rstate = .tx) :
    txEnd s = { s with
      rstate := .txIdle
      airOut := s.airOut ++ [if s.airConf then .frame s.txLen (txFrame s) else .undescribed]
      radio := packetEvents s.draws s.radio
      draws := s.draws + 256 } := by
  simp only [txEnd, h]
  rfl

/-- With no transmission running there is none to end (log 27). -/
theorem txEnd_of_not_tx {s : State} (h : s.rstate ≠ .tx) : txEnd s = s := by
  unfold txEnd
  split
  · exact absurd ‹_› h
  · rfl

/-- The end of a running reception of a frame the air can deliver (rule R167; log 26). -/
theorem rxEnd_rx {s : State} {f : AirFrame} {rest : List AirFrame} (h : s.rstate = .rx) (hair : s.airIn = f :: rest)
    (hlen : f.bytes.length ≤ 255) :
    rxEnd s = { s with
      rstate := .rxIdle
      airIn := rest
      buf := rxBuffer (s.airConf && airConfigured s.radio) s.draws s.buf f
      radio := packetEvents s.draws (rxDetails f s.radio)
      draws := s.draws + 256 } := by
  simp only [rxEnd, h, hair]
  exact if_pos hlen

/-- With no reception running, or no frame that the air can deliver, there is none to end (logs 26, 27). -/
theorem rxEnd_of_none {s : State}
    (h : s.rstate ≠ .rx ∨ s.airIn = [] ∨ ∃ f rest, s.airIn = f :: rest ∧ 255 < f.bytes.length) : rxEnd s = s := by
  unfold rxEnd
  split
  · rename_i f rest hrx hair
    obtain h | h | ⟨f', rest', h, hlen⟩ := h
    · exact absurd hrx h
    · simp [hair] at h
    · obtain ⟨rfl, rfl⟩ : f = f' ∧ rest = rest' := by simpa [hair] using h
      exact if_neg (by simp [Config.maxLen]; omega)
  · rfl

/-! ## The bytes on the air -/

/-- `T` of rule R165 has `max(txLen − 2, 0)` bytes. -/
@[simp] theorem length_txFrame (s : State) : (txFrame s).length = s.txLen.toNat - 2 := by
  simp [txFrame, Config.fcsLen]

/-- A byte of `T` that the controller has not written since the transmission began is the latched buffer's
(rule R165). -/
theorem getElem?_txFrame {s : State} {i : Nat} (hi : i < (txFrame s).length) (hclean : (1 + i) ∉ s.txDirty) :
    (txFrame s)[i]? = some (s.txImage.read (1 + i)) := by
  rw [length_txFrame] at hi
  simp [txFrame, Config.fcsLen, hi, hclean]

/-! ## A frame in the buffer

A length byte at index 0 and the frame's bytes from index 1 on, as a transmission takes them and a reception leaves them
(rules R165, R167). -/

/-- The length byte reads back. -/
@[simp] theorem Memory.read_writeBytes_head (m : Memory) (n : Byte) (bs : Bytes) :
    Memory.read (Memory.writeBytes m 0 (n :: bs)) 0 = n := by
  rw [Memory.writeBytes, Memory.read_writeBytes_below _ _ _ _ (by omega), Memory.read_write_same]

/-- The frame's bytes read back from index 1 on. -/
theorem Memory.read_writeBytes_tail (m : Memory) (n : Byte) {bs : Bytes} {i : Nat} (hi : i < bs.length) :
    Memory.read (Memory.writeBytes m 0 (n :: bs)) (1 + i) = bs[i] :=
  Memory.read_writeBytes_at _ 1 bs i hi

/-- The bytes past the frame read as before. -/
theorem Memory.read_writeBytes_past (m : Memory) (n : Byte) {bs : Bytes} {a : Nat} (ha : 1 + bs.length ≤ a) :
    Memory.read (Memory.writeBytes m 0 (n :: bs)) a = Memory.read m a :=
  Memory.read_writeBytes_above m 0 (n :: bs) a (by rw [List.length_cons]; omega)

/-! ## The radio's turns -/

/-- A listed turn of the radio (rule R160). -/
theorem step_radio {s : State} {m : RadioMove} {ts : List Turn} (h : s.turns = .radio m :: ts) :
    step s = .next (radioStep m { s with turns := ts }) := step_listed h

/-- Settles O12: a pending task is taken as `takeTxen_pending` and `takeRxen_pending` say. -/
theorem enableTasksTaken : Obligations.EnableTasksTaken := by
  refine ⟨fun s c ts ht hp => ?_, fun s c ts ht hp => ?_, fun s c ts => ⟨fun ht hp => ?_, fun ht hp => ?_⟩⟩
  · rw [step_radio ht]
    exact congrArg _ (takeTxen_pending (s := { s with turns := ts }) c hp)
  · rw [step_radio ht]
    exact congrArg _ (takeRxen_pending (s := { s with turns := ts }) c hp)
  · rw [step_radio ht]
    exact congrArg _ (takeTxen_of_not_pending (s := { s with turns := ts }) _ c hp)
  · rw [step_radio ht]
    exact congrArg _ (takeRxen_of_not_pending (s := { s with turns := ts }) _ c hp)

/-- Settles O13: each ramp-up has its Idle state; elsewhere `rampUp_of_none`. -/
theorem rampUpEnds : Obligations.RampUpEnds := by
  intro s ts ht
  rw [step_radio ht]
  refine ⟨fun hs => ?_, fun hs => ?_, fun htx hrx => ?_⟩
  · simp [radioStep, rampUp, hs, setEvent_eq]
  · simp [radioStep, rampUp, hs, setEvent_eq]
  · exact congrArg _ (rampUp_of_none (s := { s with turns := ts }) htx hrx)

/-- Settles O14: START by the state it finds the radio in. -/
theorem startTaken : Obligations.StartTaken := by
  refine ⟨fun s ts ht hp => ⟨fun hs => ?_, fun hs => ?_, fun htx hrx => ?_⟩, fun s ts ht hp => ?_⟩
  all_goals rw [step_radio ht]
  · exact congrArg _ (takeStart_txIdle (s := { s with turns := ts }) hp hs)
  · exact congrArg _ (takeStart_rxIdle (s := { s with turns := ts }) hp hs)
  · exact congrArg _ (takeStart_dropped (s := { s with turns := ts }) hp htx hrx)
  · exact congrArg _ (takeStart_of_not_pending (s := { s with turns := ts }) hp)

/-- Settles O15: the frame is `txFrame`, the events are those of `packetEvents`. -/
theorem transmissionEnds : Obligations.TransmissionEnds := by
  refine ⟨fun s ts ht hs => ?_, fun s ts ht hs => ?_⟩
  all_goals rw [step_radio ht]
  · refine ⟨_, _, _, congrArg _ (txEnd_tx (s := { s with turns := ts }) hs), fun hc => ?_, fun hc => ?_, rfl, rfl⟩
    · exact ⟨txFrame { s with turns := ts }, if_pos hc, length_txFrame _, fun i hi hclean => getElem?_txFrame hi hclean⟩
    · exact if_neg (by simp [hc])
  · exact congrArg _ (txEnd_of_not_tx (s := { s with turns := ts }) hs)

/-- Settles O16: `rxEnd_rx`, whose described buffer is the length byte and the frame written from index 0 on. -/
theorem receptionEnds : Obligations.ReceptionEnds := by
  refine ⟨fun s ts f rest ht hs hair hlen => ?_, fun s ts ht hnone => ?_⟩
  all_goals rw [step_radio ht]
  · refine ⟨_, _, _, congrArg _ (rxEnd_rx (s := { s with turns := ts }) hs hair hlen), fun hc hconf => ?_, ?_⟩
    · simp only [hc, hconf, Bool.and_self, rxBuffer, if_true]
      refine ⟨?_, fun i hi => ?_, fun a ha => Memory.read_writeBytes_past _ _ ha⟩
      · rw [Memory.read_writeBytes_head, BitVec.toNat_ofNat, Nat.mod_eq_of_lt (by omega)]
      · rw [Memory.read_writeBytes_tail _ _ hi, List.getElem?_eq_getElem hi]
    · rw [rxDetails_eq]
      exact ⟨rfl, rfl, rfl, rfl, rfl, rfl⟩
  · exact congrArg _ (rxEnd_of_none (s := { s with turns := ts }) hnone)

/-! ## The radio's state -/

/-- A radio transition leaves the radio's state or enters one of the six states of an enabled radio (rule R160). -/
theorem radioStep_rstate (m : RadioMove) (s : State) :
    (radioStep m s).rstate = s.rstate ∨
      (radioStep m s).rstate ∈ [RadioState.txRampUp, .rxRampUp, .txIdle, .rxIdle, .tx, .rx] := by
  cases m <;> simp only [radioStep, takeTxen, takeRxen, takeStart, acceptStart, rampUp, txEnd, rxEnd] <;>
    (repeat' split) <;> simp

/-- Settles O17: the radio's transitions enter enabled states only, and no other agent moves the radio. -/
theorem radioNeverDisabledAgain : Obligations.RadioNeverDisabledAgain := by
  intro s t h hoff
  refine step_rec h (fun t => (t.rstate = .disabled ∨ t.rstate = .rxDisable ∨ t.rstate = .txDisable) →
      t.rstate = s.rstate) (fun _ _ _ => rfl) (fun _ _ _ _ => rfl) (fun _ _ _ _ _ _ _ _ => rfl)
    (fun _ _ _ _ _ _ => rfl) (fun _ _ _ _ _ _ he _ => (exec_frame he).rstate) (fun _ _ _ _ _ _ _ => rfl)
    (fun ts m hm => ?_) hoff
  obtain hkept | henabled := radioStep_rstate m { s with turns := ts }
  · exact hkept
  · obtain hm | hm | hm := hm <;> simp [hm] at henabled

end Sys2Proof.Machine
end

section
/-! PROOFS. The radio controller: the lines of its procedures and of CONSTRUCT and CONFIGURE, the first and the last
line of every command that uses the radio, and the two configuration commands run from start to result. -/

namespace Sys2Proof.Machine

/-! ## Reading the buffer -/

/-- A byte of a byte string read from the buffer. -/
theorem Memory.getElem?_readBytes {m : Memory} {a n j : Nat} (h : j < n) :
    (Memory.readBytes m a n)[j]? = some (Memory.read m (a + j)) := by
  induction n generalizing a j with
  | zero => omega
  | succ n ih =>
    cases j with
    | zero => rfl
    | succ j =>
      rw [Memory.readBytes, List.getElem?_cons_succ, ih (by omega), Nat.add_assoc, Nat.add_comm 1 j]

/-! ## TransmitBlocking and ReceiveBlocking -/

/-- A poll's read moves on, or changes nothing (rules R130, R131). -/
theorem pollStep_standing {want : RadioState} {r : Run} {next : Line} {s : State} (hs : s.seqr = .running r) :
    pollStep want r next s = if s.rstate = want then standing s r next r.frame else s := by
  rw [pollStep_eq, goto_self hs]
  rfl

/-- The length test of TransmitBlocking (rule R137). -/
theorem txStep_check (r : Run) (s : State) : txStep .check r s = .next
    (if 255 < r.frame.txBytes.length then stopped .bufferOverflow s else standing s r (.tx .writeLen) r.frame) :=
  (apply_ite Host.Outcome.next _ _ _).symm

/-- TransmitBlocking's store of the length byte (rules R137, R165). -/
theorem txStep_writeLen (r : Run) (s : State) : txStep .writeLen r s = .next
    { standing s r (.tx .writeBytes) r.frame with
      buf := s.buf.writeBytes 0 [r.frame.txOnAir]
      txDirty := if s.rstate = .tx then 0 :: s.txDirty else s.txDirty } := by
  rw [txStep]
  exact memWrite_inside (by simp)

/-- TransmitBlocking's store of the frame's bytes, which fit by the length test (rules R137, R165). -/
theorem txStep_writeBytes {r : Run} (s : State) (hlen : r.frame.txBytes.length ≤ 255) :
    txStep .writeBytes r s = .next
      { standing s r (.tx .shorts) r.frame with
        buf := s.buf.writeBytes 1 r.frame.txBytes
        txDirty := if s.rstate = .tx then (List.range r.frame.txBytes.length).map (1 + ·) ++ s.txDirty
          else s.txDirty } := by
  rw [txStep]
  exact memWrite_inside (by omega)

/-- TransmitBlocking's read of STATE (rules R45, R137). -/
theorem txStep_readState {q : RadioState} {r : Run} {s : State} (hs : s.rstate = q) :
    txStep .readState r s = .next
      (standing s r (.tx .enable) { r.frame with stateRead := q.code.setWidth 32 }) := by
  rw [txStep, regRead_state, hs]
  rfl

/-- TransmitBlocking's enable task, written unless STATE showed TxIdle (rule R137). -/
theorem txStep_enable (r : Run) (s : State) : txStep .enable r s = .next
    { standing s r (.tx .pollReady) r.frame with
      pending := { s.pending with
        txen := if r.frame.stateRead.extractLsb' 0 4 = 10 then s.pending.txen else true }
      tasks := if r.frame.stateRead.extractLsb' 0 4 = 10 then s.tasks
        else { s.tasks with txen := Config.taskRead s.tasks.writes, writes := s.tasks.writes + 1 } } := by
  simp only [txStep, shows_eq, decide_eq_true_eq, show RadioState.txIdle.code = 10 from rfl]
  by_cases hw : r.frame.stateRead.extractLsb' 0 4 = 10
  · simp only [if_pos hw]; rfl
  · simp only [if_neg hw]; rfl

/-- Settles O20: the lines of `txStep`, one by one. -/
theorem transmitBlockingLines : Obligations.TransmitBlockingLines := by
  intro i s r hi
  have line : ∀ {l o}, txStep l r s = o → runs s r (.tx l) → exec i s = o :=
    fun ho ⟨hh, hs, hl⟩ => (exec_eq_txStep hh hs hi hl).trans ho
  exact ⟨line (txStep_check r s), line (txStep_writeLen r s), fun h hlen => line (txStep_writeBytes s hlen) h,
    line rfl, line (txStep_readState rfl), line (txStep_enable r s),
    fun h@⟨_, hs, _⟩ => line (congrArg _ (pollStep_standing hs)) h, line rfl,
    fun h@⟨_, hs, _⟩ => line (congrArg _ (pollStep_standing hs)) h⟩

/-- ReceiveBlocking's read of STATE (rules R45, R138). -/
theorem rxStep_readState {q : RadioState} {r : Run} {s : State} (hs : s.rstate = q) :
    rxStep .readState r s = .next
      (standing s r (.rx .enable) { r.frame with stateRead := q.code.setWidth 32 }) := by
  rw [rxStep, regRead_state, hs]
  rfl

/-- ReceiveBlocking's enable task, written unless STATE showed RxIdle (rule R138). -/
theorem rxStep_enable (r : Run) (s : State) : rxStep .enable r s = .next
    { standing s r (.rx .pollReady) r.frame with
      pending := { s.pending with
        rxen := if r.frame.stateRead.extractLsb' 0 4 = 2 then s.pending.rxen else true }
      tasks := if r.frame.stateRead.extractLsb' 0 4 = 2 then s.tasks
        else { s.tasks with rxen := Config.taskRead s.tasks.writes, writes := s.tasks.writes + 1 } } := by
  simp only [rxStep, shows_eq, decide_eq_true_eq, show RadioState.rxIdle.code = 2 from rfl]
  by_cases hw : r.frame.stateRead.extractLsb' 0 4 = 2
  · simp only [if_pos hw]; rfl
  · simp only [if_neg hw]; rfl

/-- ReceiveBlocking's read of the length byte (rule R138). -/
theorem rxStep_readLen (r : Run) (s : State) : rxStep .readLen r s = .next
    (standing s r (.rx .readFrame) { r.frame with rxLen := s.buf.read 0 }) := by
  rw [rxStep]
  exact memRead_inside (by omega)

/-- ReceiveBlocking's read of the frame's bytes, as many as the length byte says (rules R67, R138). -/
theorem rxStep_readFrame (r : Run) (s : State) : rxStep .readFrame r s = .next
    (standing s r r.frame.rxRet { r.frame with rxBytes := s.buf.readBytes 1 r.frame.rxLen.toNat }) := by
  rw [rxStep]
  exact memRead_inside (by have := r.frame.rxLen.isLt; omega)

/-- Settles O21: the lines of `rxStep`, one by one. -/
theorem receiveBlockingLines : Obligations.ReceiveBlockingLines := by
  intro i s r hi
  have line : ∀ {l o}, rxStep l r s = o → runs s r (.rx l) → exec i s = o :=
    fun ho ⟨hh, hs, hl⟩ => (exec_eq_rxStep hh hs hi hl).trans ho
  refine ⟨line rfl, line (rxStep_readState rfl), line (rxStep_enable r s),
    fun h@⟨_, hs, _⟩ => line (congrArg _ (pollStep_standing hs)) h, line rfl,
    fun h@⟨_, hs, _⟩ => line (congrArg _ (pollStep_standing hs)) h, line (rxStep_readLen r s),
    fun h => ⟨_, Memory.length_readBytes _ _ _, fun j hj => ?_, line (rxStep_readFrame r s) h⟩⟩
  rw [Memory.length_readBytes] at hj
  exact Memory.getElem?_readBytes hj

/-! ## First and last lines -/

/-- A running command's step is the line at its position, given what that line answers (rule R23). -/
theorem command_line {s : State} {r : Run} {l : Line} {line : Run → Out} {o : Out} (hr : runs s r l)
    (hline : r.line = l → line r = o) : command s line = o := by
  obtain ⟨hh, hs, hl⟩ := hr
  rw [command_running hh hs, hline hl]

/-- The first line of a command that tests `constructed`, on a constructed block (rule R258). -/
theorem command_entry {s u : State} {r : Run} {line : Run → Out} (hr : runs s r .entry) (hc : s.constructed = true)
    (hline : r.line = .entry → line r = needConstructed s (.next u)) : command s line = .next u :=
  command_line hr fun hl => (hline hl).trans (needConstructed_true hc)

/-- Settles O27: the first lines, the beacon's bytes being `encodeFrame_beaconRequest`. -/
theorem radioCommandsEnter : Obligations.RadioCommandsEnter := by
  intro s r hr hc
  refine ⟨fun n => ?transmit, ?receive, ?broadcastBeacon, ?receiveOnce, fun seq => ?writeExpectAck, ?associate⟩
  case broadcastBeacon =>
    refine (command_entry hr hc (u := callTransmit _ _ .finish r r.frame s) fun hl => by rw [hl]).trans ?_
    rw [Params.spec_beaconSeq, encodeFrame_beaconRequest]
    rfl
  all_goals exact command_entry hr hc fun hl => by rw [hl]; rfl

/-- Settles O28: the last lines; two of them depend on what the command has received. -/
theorem commandsEnd : Obligations.CommandsEnd := by
  refine fun s r => ⟨fun hr => ⟨?construct, fun f => ?configure, fun n => ?transmit, ?receive, ?broadcastBeacon,
    fun m hm => ?received, fun hm => ?notReceived, fun seq ha => ?acked, fun seq ha => ?notAcked, ?associate⟩,
    fun hr seq => ?raiseTimeout⟩
  case received | notReceived => exact command_line hr fun hl => by rw [hl]; simp only [finishReceiveOnce, hm]; rfl
  case acked | notAcked => exact command_line hr fun hl => by rw [hl]; simp only [finishWait, ha]; rfl
  all_goals exact command_line hr fun hl => by rw [hl]; rfl

/-! ## Runs of one command -/

/-- A run of one more step begins with a step. -/
theorem execRun_step {i : Instr} {s t : State} {n : Nat} {o : Out} (he : exec i s = .next t) (ht : execRun n i t = o) :
    execRun (n + 1) i s = o := by
  rw [execRun, he]
  exact ht

/-! ## CONSTRUCT -/

/-- A line of CONSTRUCT after its first (rule R133). -/
theorem exec_constructStep {s : State} {r : Run} {l : ConstructLine} (hr : runs s r (.construct l)) :
    exec .construct s = .next (constructStep l r s) :=
  command_line hr fun hl => by rw [hl]

/-- CONSTRUCT's first line on a block that is not constructed (rule R133). -/
theorem exec_construct_entry {s : State} {r : Run} (hr : runs s r .entry) (hc : s.constructed = false) :
    exec .construct s = .next (goto r (.construct .readHi) s) :=
  command_line hr fun hl => by simp only [hl, hc]; rfl

/-- Settles O22: the run is the start step, the first line, the seven lines of `constructStep` and the last line. -/
theorem constructCompletes : Obligations.ConstructCompletes := by
  refine ⟨fun s hr hc => ?_, fun s r => ⟨exec_construct_entry, exec_constructStep, exec_constructStep,
    exec_constructStep, exec_constructStep, exec_constructStep, exec_constructStep, exec_constructStep⟩⟩
  obtain ⟨hh, hs⟩ := hr
  refine execRun_step (exec_idle _ hh hs) ?_
  refine execRun_step (exec_construct_entry ⟨hh, rfl, rfl⟩ hc) ?_
  iterate 7 refine execRun_step (exec_constructStep ⟨hh, rfl, rfl⟩) ?_
  refine execRun_step (command_line ⟨hh, rfl, rfl⟩ fun _ => rfl) ?_
  cases s
  cases hs
  rfl

/-! ## CONFIGURE -/

/-- A line of CONFIGURE after its first (rule R136). -/
theorem exec_configureStep {s : State} {r : Run} {l : ConfigureLine} (f : Nat) (hr : runs s r (.configure l)) :
    exec (.configure f) s = .next (configureStep f l r s) :=
  command_line hr fun hl => by rw [hl]

/-- CONFIGURE's first line on a constructed block (rule R136). -/
theorem exec_configure_entry {s : State} {r : Run} (f : Nat) (hr : runs s r .entry) (hc : s.constructed = true) :
    exec (.configure f) s = .next (goto r (.configure .rangeTest) s) :=
  command_entry hr hc fun hl => by rw [hl]

/-- The range test of CONFIGURE (rules R134, R136). -/
theorem configureStep_rangeTest (f : Nat) (r : Run) (s : State) :
    configureStep f .rangeTest r s =
      if 2360 ≤ f ∧ f ≤ 2500 then standing s r (.configure .setFrequency) r.frame else ended .rangeError none s := by
  simp only [configureStep, freqValid_iff]
  rfl

/-- CONFIGURE's write of FREQUENCY (rules R135, R136). -/
theorem configureStep_setFrequency (f : Nat) (r : Run) (s : State) :
    configureStep f .setFrequency r s = { standing s r (.configure .setMode) r.frame with
      radio := { s.radio with
        frequency := if 2400 ≤ f then BitVec.ofNat 32 (f - 2400) else BitVec.ofNat 32 (f - 2360) ||| 0x100 } } := by
  rw [← freqEncode_eq]
  rfl

/-- Settles O23: the run is the start step, the first line, the six lines of `configureStep` and the last line. -/
theorem configureCompletes : Obligations.ConfigureCompletes := by
  refine ⟨fun s f hr hc hlo hhi => ?_, fun s r f => ⟨exec_configure_entry f, fun h => ?_, fun h => ?_,
    exec_configureStep f, exec_configureStep f, exec_configureStep f, exec_configureStep f⟩⟩
  · obtain ⟨hh, hs⟩ := hr
    refine execRun_step (exec_idle _ hh hs) ?_
    refine execRun_step (exec_configure_entry f ⟨hh, rfl, rfl⟩ hc) ?_
    refine execRun_step (exec_configureStep f ⟨hh, rfl, rfl⟩) ?_
    rw [configureStep_rangeTest, if_pos ⟨hlo, hhi⟩]
    refine execRun_step (exec_configureStep f ⟨hh, rfl, rfl⟩) ?_
    rw [configureStep_setFrequency]
    iterate 4 refine execRun_step (exec_configureStep f ⟨hh, rfl, rfl⟩) ?_
    refine execRun_step (command_line ⟨hh, rfl, rfl⟩ fun _ => rfl) ?_
    cases s
    cases hs
    rfl
  · rw [exec_configureStep f h, configureStep_rangeTest]
  · rw [exec_configureStep f h, configureStep_setFrequency]

/-- Settles O24: the run ends at the range test. -/
theorem configureOutOfRange : Obligations.ConfigureOutOfRange := by
  intro s f hr hc hf
  obtain ⟨hh, hs⟩ := hr
  refine execRun_step (exec_idle _ hh hs) ?_
  refine execRun_step (exec_configure_entry f ⟨hh, rfl, rfl⟩ hc) ?_
  refine execRun_step (exec_configureStep f ⟨hh, rfl, rfl⟩) ?_
  rw [configureStep_rangeTest, if_neg (by omega)]
  cases s
  cases hs
  rfl

/-! ## The FREQUENCY word -/

/-- A number below 128 sets no bit of its word from bit 7 on. -/
theorem getLsbD_ofNat_of_lt {d k : Nat} (hd : d < 128) (hk : 7 ≤ k) : (BitVec.ofNat 32 d).getLsbD k = false := by
  have hbit : d.testBit k = false := Nat.testBit_lt_two_pow (hd.trans_le (Nat.pow_le_pow_right (n := 2) (by omega) hk))
  rw [BitVec.getLsbD_ofNat, hbit, Bool.and_false]

/-- A word of an offset below 128 and the base-select bit `map` holds the offset in bits 6:0, `map` in bit 8, and 0 in
every other bit (rule R135). -/
theorem frequencyWord_fields {d : Nat} {map : Word} (hd : d < 128) (hmap : map = 0 ∨ map = 0x100) :
    ((BitVec.ofNat 32 d ||| map).extractLsb' 0 7).toNat = d ∧ (BitVec.ofNat 32 d ||| map).getLsbD 7 = false ∧
      (BitVec.ofNat 32 d ||| map).getLsbD 8 = map.getLsbD 8 ∧ (BitVec.ofNat 32 d ||| map).extractLsb' 9 23 = 0 := by
  have low : map.extractLsb' 0 7 = 0 ∧ map.getLsbD 7 = false ∧ map.extractLsb' 9 23 = 0 := by
    obtain rfl | rfl := hmap <;> decide
  obtain ⟨hlow, h7, hhigh⟩ := low
  have offset : (BitVec.ofNat 32 d).extractLsb' 9 23 = 0 := by
    ext k hk
    simp [getLsbD_ofNat_of_lt hd (show 7 ≤ 9 + k by omega)]
  refine ⟨?_, ?_, ?_, ?_⟩
  · rw [BitVec.extractLsb'_or, hlow]
    simp
    omega
  · rw [BitVec.getLsbD_or, getLsbD_ofNat_of_lt hd (by omega), h7]; rfl
  · rw [BitVec.getLsbD_or, getLsbD_ofNat_of_lt hd (by omega), Bool.false_or]
  · rw [BitVec.extractLsb'_or, offset, hhigh]; rfl

/-- Settles O25: `frequencyWord_fields` at the offset from either base, which a valid frequency keeps below 128. -/
theorem frequencyEncoding : Obligations.FrequencyEncoding := by
  refine ⟨freqValid_iff, fun f hf => ?_⟩
  obtain ⟨hlo, hhi⟩ := (freqValid_iff f).mp hf
  rw [freqEncode_eq]
  by_cases h : 2400 ≤ f
  · obtain ⟨hlow, h7, h8, hhigh⟩ := frequencyWord_fields (d := f - 2400) (by omega) (.inl rfl)
    rw [show (0 : Word) = 0#32 from rfl, BitVec.or_zero] at hlow h7 h8 hhigh
    rw [if_pos h, if_pos h]
    exact ⟨fun _ => ⟨rfl, h8⟩, fun hlt => by omega, hlow, h7, hhigh⟩
  · obtain ⟨hlow, h7, h8, hhigh⟩ := frequencyWord_fields (d := f - 2360) (by omega) (.inr rfl)
    rw [if_neg h, if_neg h]
    exact ⟨fun hge => absurd hge h, fun _ => ⟨rfl, h8⟩, hlow, h7, hhigh⟩

end Sys2Proof.Machine
end

section
/-! PROOFS. Runs in the prompt order (log 2): a command started by the host's write, the controller's lines while the
radio rests, a packet the radio completes between two of them, and the two radio procedures from the first line to the
return point. -/

namespace Sys2Proof.Machine

/-! ## Runs -/

/-- A run of `n` steps ends in a state with the property. -/
def Reaches (n : Nat) (s : State) (P : State → Prop) : Prop := ∃ t, stepRun n s = .next t ∧ P t

/-- A run of no steps. -/
theorem Reaches.zero {s : State} {P : State → Prop} (h : P s) : Reaches 0 s P := ⟨s, rfl, h⟩

/-- A run of one more step begins with a step. -/
theorem Reaches.step {n : Nat} {s t : State} {P : State → Prop} (hs : step s = .next t) (h : Reaches n t P) :
    Reaches (n + 1) s P := by
  obtain ⟨u, hu, hP⟩ := h
  exact ⟨u, by rw [stepRun, hs]; exact hu, hP⟩

/-! ## The prompt order -/

/-- The radio has no transition of its own to make: Disabled, or in an Idle state. -/
def atRest (q : RadioState) : Prop := q = .disabled ∨ q = .txIdle ∨ q = .rxIdle

/-- While the radio rests, with no task pending, the controller moves if a command runs, and the host if not. -/
theorem promptTurn_of_radioRests {s : State} {q : RadioState} (hq : atRest q) (hr : radioRests s q)
    (hh : s.halted = none) :
    promptTurn s = match s.seqr with
      | .running _ => .controller
      | .idle => .host := by
  obtain ⟨hs, hp⟩ := hr
  obtain rfl | rfl | rfl := hq
  all_goals
    simp only [promptTurn, hp, hs, hh]
    cases s.seqr <;> rfl

/-- With START pending and no other task, the radio takes it. -/
theorem promptTurn_start {s : State} (hp : s.pending = { txen := false, rxen := false, start := true }) :
    promptTurn s = .radio .takeStart := by
  simp [promptTurn, hp]

/-- A running transmission ends before the controller's next line. -/
theorem promptTurn_tx {s : State} (hr : radioRests s .tx) : promptTurn s = .radio .txEnd := by
  obtain ⟨hs, hp⟩ := hr
  simp [promptTurn, hp, hs]

/-- A running reception of a frame that waits in the air ends before the controller's next line. -/
theorem promptTurn_rx {s : State} {f : AirFrame} {rest : List AirFrame} (hr : radioRests s .rx)
    (hair : s.airIn = f :: rest) : promptTurn s = .radio .rxEnd := by
  obtain ⟨hs, hp⟩ := hr
  simp [promptTurn, hp, hs, hair]

/-! ## The controller at a line of a command -/

/-- The prompt order gives the next step to the controller, which runs the command `i` at `r`, the radio resting
in `q`. -/
structure Controls (i : Instr) (q : RadioState) (s : State) (r : Run) : Prop where
  halted : s.halted = none
  seqr : s.seqr = .running r
  cmd : decode r.frame.ops.cmd = .command i
  turns : s.turns = []
  rests : radioRests s q
  atRest : atRest q

section
variable {i : Instr} {q : RadioState} {s t : State} {r r' : Run} {n : Nat} {P : State → Prop}

/-- A prompt turn of the radio. -/
theorem Reaches.radio {m : RadioMove} (hm : promptTurn s = .radio m) (ht : s.turns = [])
    (h : Reaches n (radioStep m s) P) : Reaches (n + 1) s P :=
  h.step (by rw [step_prompt ht, hm]; rfl)

/-- The controller's step is the command's line. -/
theorem Controls.line (h : Controls i q s r) (he : exec i s = .next t) (ht : Reaches n t P) : Reaches (n + 1) s P := by
  refine ht.step ?_
  rw [step_prompt h.turns, promptTurn_of_radioRests h.atRest h.rests h.halted, h.seqr]
  exact (controllerStep_running h.halted h.seqr h.cmd).trans he

/-- After a line that keeps the command running and raises no task the controller goes on. -/
theorem Controls.next (h : Controls i q s r) (he : exec i s = .next t) (hs : t.seqr = .running r')
    (hhalted : t.halted = s.halted) (hpending : t.pending = s.pending) (ht : Controls i q t r' → Reaches n t P) :
    Reaches (n + 1) s P := by
  have frame := exec_frame he
  obtain ⟨hrstate, hp⟩ := h.rests
  obtain ⟨-, hops⟩ := exec_keepsOperands he h.halted h.seqr r' hs
  exact h.line he (ht ⟨hhalted.trans h.halted, hs, by rw [hops, h.cmd], frame.turns.trans h.turns,
    ⟨frame.rstate.trans hrstate, hpending.trans hp⟩, h.atRest⟩)

/-- A poll for the state the radio rests in moves on (rules R130, R131). -/
theorem Controls.poll (h : Controls i q s r) (l : Line) : pollStep q r l s = standing s r l r.frame :=
  (pollStep_standing h.seqr).trans (if_pos h.rests.1)

/-! ## The start of a command -/

/-- The host's write of a command word to a block that is ready is the start step (rule R23). -/
theorem writeCmd_command {w : Word} (hr : ready s) (hd : decode w = .command i) :
    writeCmd w s = .next (startCommand { s with host := s.host.set (.cmd w) }) := by
  obtain ⟨hh, hs⟩ := hr
  rw [← exec_idle i (s := { s with host := s.host.set (.cmd w) }) hh hs]
  simp only [writeCmd, hh, hs, hd]

/-- The state after the host's write of the command word `w`, its first pending write (rules R23, R68). -/
def started (s : State) (w : Word) (rest : List HostWrite) : State :=
  startCommand { s with host := s.host.set (.cmd w), hostQ := rest }

/-- The host's write starts the command, and the controller is at its first line. -/
theorem reaches_started {w : Word} {rest : List HostWrite} (hr : ready s) (hi : hostIssues s w rest)
    (hd : decode w = .command i) (hq : radioRests s q) (ha : atRest q)
    (ht : Controls i q (started s w rest) (startedRun (s.host.set (.cmd w))) → Reaches n (started s w rest) P) :
    Reaches (n + 1) s P := by
  obtain ⟨hh, hs⟩ := hr
  obtain ⟨hw, hturns⟩ := hi
  refine (ht ⟨hh, rfl, hd, hturns, hq, ha⟩).step ?_
  rw [step_prompt hturns, promptTurn_of_radioRests ha hq hh, hs]
  simp only [agentStep, hostStep, hw]
  exact writeCmd_command (s := { s with hostQ := rest }) ⟨hh, hs⟩ hd

/-! ## A packet between two of the controller's lines -/

/-- The state after a procedure's write of START, at the poll that follows (rules R34, R137, R138). -/
def startWritten (s : State) (r : Run) (l : Line) : State :=
  { standing s r l r.frame with
    pending := { s.pending with start := true }
    tasks := { s.tasks with start := Config.taskRead s.tasks.writes, writes := s.tasks.writes + 1 } }

/-- The state after a transmission of what the buffer holds, under the configuration of rule R168 (rules R165, R166). -/
def aired (s : State) : State :=
  { s with
    pending := { txen := false, rxen := false, start := false }
    rstate := .txIdle
    txLen := s.buf.read 0
    txImage := s.buf
    txDirty := []
    airConf := true
    airOut := s.airOut ++ [.frame (s.buf.read 0) (s.buf.readBytes 1 ((s.buf.read 0).toNat - 2))]
    radio := packetEvents s.draws s.radio
    draws := s.draws + 256 }

/-- The state after a reception of the frame `f`, under the configuration of rule R168 (rules R166, R167). -/
def delivered (f : AirFrame) (rest : List AirFrame) (s : State) : State :=
  { s with
    pending := { txen := false, rxen := false, start := false }
    rstate := .rxIdle
    airConf := true
    airIn := rest
    buf := s.buf.writeBytes 0 (BitVec.ofNat 8 f.bytes.length :: f.bytes)
    radio := packetEvents s.draws (rxDetails f s.radio)
    draws := s.draws + 256 }

/-- A frame sent with no write to the buffer since it began is the latched buffer's (rule R165). -/
theorem txFrame_clean (h : s.txDirty = []) : txFrame s = s.txImage.readBytes 1 (s.txLen.toNat - 2) := by
  refine List.ext_getElem? fun j => ?_
  by_cases hj : j < s.txLen.toNat - 2
  · rw [getElem?_txFrame (by rwa [length_txFrame]) (by simp [h]), Memory.getElem?_readBytes hj]
  · rw [List.getElem?_eq_none (by rw [length_txFrame]; omega),
      List.getElem?_eq_none (by rw [Memory.length_readBytes]; omega)]

/-- START is then the one pending task. -/
theorem Controls.pending_startWritten (h : Controls i q s r) (l : Line) :
    (startWritten s r l).pending = { txen := false, rxen := false, start := true } := by
  obtain ⟨-, hp⟩ := h.rests
  simp [startWritten, hp]

/-- In TxIdle the radio takes START and completes the transmission, and the controller goes on. -/
theorem Controls.reaches_aired (h : Controls i .txIdle s r) {l : Line} (hconf : airConfigured s.radio = true)
    (ht : Controls i .txIdle (aired (startWritten s r l)) { r with line := l } →
      Reaches n (aired (startWritten s r l)) P) : Reaches (n + 2) (startWritten s r l) P := by
  have hp := h.pending_startWritten l
  have hs : (startWritten s r l).rstate = .txIdle := h.rests.1
  have hconf : airConfigured (startWritten s r l).radio = true := hconf
  refine .radio (promptTurn_start hp) h.turns ?_
  rw [radioStep, takeStart_txIdle (by rw [hp]) hs]
  refine .radio (promptTurn_tx ⟨rfl, by simp [hp]⟩) h.turns ?_
  rw [radioStep, txEnd_tx rfl, txFrame_clean rfl]
  simp only [hp, hconf, if_true]
  exact ht ⟨h.halted, rfl, h.cmd, h.turns, ⟨rfl, rfl⟩, h.atRest⟩

/-- In RxIdle, a frame waiting in the air, the radio takes START and completes the reception, and the controller goes
on. -/
theorem Controls.reaches_delivered {f : AirFrame} {rest : List AirFrame} (h : Controls i .rxIdle s r) {l : Line}
    (hconf : airConfigured s.radio = true) (hair : s.airIn = f :: rest) (hlen : f.bytes.length ≤ 255)
    (ht : Controls i .rxIdle (delivered f rest (startWritten s r l)) { r with line := l } →
      Reaches n (delivered f rest (startWritten s r l)) P) : Reaches (n + 2) (startWritten s r l) P := by
  have hp := h.pending_startWritten l
  have hs : (startWritten s r l).rstate = .rxIdle := h.rests.1
  have hconf : airConfigured (startWritten s r l).radio = true := hconf
  refine .radio (promptTurn_start hp) h.turns ?_
  rw [radioStep, takeStart_rxIdle (by rw [hp]) hs]
  refine .radio (promptTurn_rx ⟨rfl, by simp [hp]⟩ hair) h.turns ?_
  rw [radioStep, rxEnd_rx (rest := rest) rfl ?air hlen]
  case air => exact hair
  simp only [hp, hconf, rxBuffer, Bool.and_self, if_true]
  exact ht ⟨h.halted, rfl, h.cmd, h.turns, ⟨rfl, rfl⟩, h.atRest⟩

/-! ## TransmitBlocking -/

/-- Nothing is transmitted while the radio rests. -/
theorem Controls.not_tx (h : Controls i q s r) : s.rstate ≠ .tx := by
  obtain ⟨hs, -⟩ := h.rests
  rw [hs]
  obtain rfl | rfl | rfl := h.atRest <;> decide

/-- The line of a command that calls TransmitBlocking. -/
theorem Controls.exec_tx {l : TxLine} (h : Controls i q s r) (hi : callsTransmit i = true) (hl : r.line = .tx l)
    (ht : txStep l r s = .next t) : exec i s = .next t :=
  (exec_eq_txStep h.halted h.seqr hi hl).trans ht

/-- The store of the length byte, while the radio rests (rule R137). -/
theorem Controls.exec_writeLen (h : Controls i q s r) (hi : callsTransmit i = true) (hl : r.line = .tx .writeLen) :
    exec i s = .next { standing s r (.tx .writeBytes) r.frame with buf := s.buf.writeBytes 0 [r.frame.txOnAir] } :=
  h.exec_tx hi hl (by rw [txStep_writeLen, if_neg h.not_tx]; rfl)

/-- The store of the frame's bytes, while the radio rests (rule R137). -/
theorem Controls.exec_writeBytes (h : Controls i q s r) (hi : callsTransmit i = true) (hl : r.line = .tx .writeBytes)
    (hlen : r.frame.txBytes.length ≤ 255) :
    exec i s = .next { standing s r (.tx .shorts) r.frame with buf := s.buf.writeBytes 1 r.frame.txBytes } :=
  h.exec_tx hi hl (by rw [txStep_writeBytes s hlen, if_neg h.not_tx]; rfl)

/-- The state after TransmitBlocking's stores, its write of SHORTS and its read of STATE (rule R137). -/
def txStored (q : RadioState) (r : Run) (s : State) : State :=
  { standing s r (.tx .enable) { r.frame with stateRead := q.code.setWidth 32 } with
    buf := s.buf.writeBytes 0 (r.frame.txOnAir :: r.frame.txBytes)
    radio := { s.radio with shorts := 0 } }

/-- TransmitBlocking's lines up to its read of STATE. -/
theorem Controls.reaches_txStored (h : Controls i q s r) (hi : callsTransmit i = true) (hl : r.line = .tx .check)
    (hlen : r.frame.txBytes.length ≤ 255)
    (ht : Controls i q (txStored q r s)
        { r with line := .tx .enable, frame := { r.frame with stateRead := q.code.setWidth 32 } } →
      Reaches n (txStored q r s) P) : Reaches (n + 5) s P := by
  refine h.next (h.exec_tx hi hl ((txStep_check r s).trans (congrArg _ (if_neg (by omega))))) rfl rfl rfl fun h => ?_
  refine h.next (h.exec_writeLen hi rfl) rfl rfl rfl fun h => ?_
  refine h.next (h.exec_writeBytes hi rfl hlen) rfl rfl rfl fun h => ?_
  refine h.next (h.exec_tx hi rfl rfl) rfl rfl rfl fun h => ?_
  exact h.next (h.exec_tx hi rfl (txStep_readState h.rests.1)) rfl rfl rfl ht

/-- The enable task is not written where STATE showed TxIdle (rule R137). -/
theorem txStep_enable_of_txIdle (hw : r.frame.stateRead = RadioState.txIdle.code.setWidth 32) :
    txStep .enable r s = .next (standing s r (.tx .pollReady) r.frame) :=
  if_pos (by rw [hw]; exact shows_code _ _)

/-- TransmitBlocking's write of START (rules R34, R137). -/
theorem txStep_start (r : Run) (s : State) : txStep .start r s = .next (startWritten s r (.tx .pollDone)) := rfl

/-- The state after TransmitBlocking's transmission, at the return point (rule R137). -/
def txSent (r : Run) (s : State) : State :=
  standing (aired (startWritten s r (.tx .pollDone))) r r.frame.txRet r.frame

/-- TransmitBlocking's lines from its first poll on, in TxIdle, with the radio's transmission among them. -/
theorem Controls.reaches_txSent (h : Controls i .txIdle s r) (hi : callsTransmit i = true)
    (hl : r.line = .tx .pollReady) (hconf : airConfigured s.radio = true)
    (ht : Controls i .txIdle (txSent r s) { r with line := r.frame.txRet } → Reaches n (txSent r s) P) :
    Reaches (n + 5) s P := by
  refine h.next (h.exec_tx hi hl (congrArg Host.Outcome.next (h.poll _))) rfl rfl rfl fun h => ?_
  refine h.line (h.exec_tx hi rfl (txStep_start _ _)) (h.reaches_aired hconf fun h => ?_)
  exact h.next (h.exec_tx hi rfl (congrArg Host.Outcome.next (h.poll _))) rfl rfl rfl ht

/-! ## ReceiveBlocking -/

/-- The line of a command that calls ReceiveBlocking. -/
theorem Controls.exec_rx {l : RxLine} (h : Controls i q s r) (hi : callsReceive i = true) (hl : r.line = .rx l)
    (ht : rxStep l r s = .next t) : exec i s = .next t :=
  (exec_eq_rxStep h.halted h.seqr hi hl).trans ht

/-- The state after ReceiveBlocking's write of SHORTS and its read of STATE (rule R138). -/
def rxPrepared (q : RadioState) (r : Run) (s : State) : State :=
  { standing s r (.rx .enable) { r.frame with stateRead := q.code.setWidth 32 } with
    radio := { s.radio with shorts := 0 } }

/-- ReceiveBlocking's lines up to its read of STATE. -/
theorem Controls.reaches_rxPrepared (h : Controls i q s r) (hi : callsReceive i = true) (hl : r.line = .rx .shorts)
    (ht : Controls i q (rxPrepared q r s)
        { r with line := .rx .enable, frame := { r.frame with stateRead := q.code.setWidth 32 } } →
      Reaches n (rxPrepared q r s) P) : Reaches (n + 2) s P := by
  refine h.next (h.exec_rx hi hl rfl) rfl rfl rfl fun h => ?_
  exact h.next (h.exec_rx hi rfl (rxStep_readState h.rests.1)) rfl rfl rfl ht

/-- The enable task is not written where STATE showed RxIdle (rule R138). -/
theorem rxStep_enable_of_rxIdle (hw : r.frame.stateRead = RadioState.rxIdle.code.setWidth 32) :
    rxStep .enable r s = .next (standing s r (.rx .pollReady) r.frame) :=
  if_pos (by rw [hw]; exact shows_code _ _)

/-- ReceiveBlocking's write of START (rules R34, R138). -/
theorem rxStep_start (r : Run) (s : State) : rxStep .start r s = .next (startWritten s r (.rx .pollDone)) := rfl

/-- The length byte of a frame in the buffer, read by ReceiveBlocking (rules R138, R167). -/
theorem rxStep_readLen_of_buf {m : Memory} {b : Byte} {bs : Bytes} (hbuf : s.buf = m.writeBytes 0 (b :: bs)) :
    rxStep .readLen r s = .next (standing s r (.rx .readFrame) { r.frame with rxLen := b }) := by
  rw [rxStep_readLen, hbuf, Memory.read_writeBytes_head]

/-- The bytes of a frame in the buffer, read by ReceiveBlocking (rules R138, R167). -/
theorem rxStep_readFrame_of_buf {m : Memory} {b : Byte} {bs : Bytes} (hbuf : s.buf = m.writeBytes 0 (b :: bs))
    (hlen : r.frame.rxLen = BitVec.ofNat 8 bs.length) (h255 : bs.length ≤ 255) :
    rxStep .readFrame r s = .next (standing s r r.frame.rxRet { r.frame with rxBytes := bs }) := by
  have hbytes : s.buf.readBytes 1 r.frame.rxLen.toNat = bs := by
    rw [hbuf, hlen, BitVec.toNat_ofNat, Nat.mod_eq_of_lt (by omega)]
    exact Memory.readBytes_writeBytes _ 1 bs
  rw [rxStep_readFrame, hbytes]

/-- The state after ReceiveBlocking's reception of the frame `f`, at the return point (rule R138). -/
def rxReceived (f : AirFrame) (rest : List AirFrame) (r : Run) (s : State) : State :=
  standing (delivered f rest (startWritten s r (.rx .pollDone))) r r.frame.rxRet
    { r.frame with rxLen := BitVec.ofNat 8 f.bytes.length, rxBytes := f.bytes }

/-- ReceiveBlocking's lines from its first poll on, in RxIdle, with the radio's reception among them. -/
theorem Controls.reaches_rxReceived {f : AirFrame} {rest : List AirFrame} (h : Controls i .rxIdle s r)
    (hi : callsReceive i = true) (hl : r.line = .rx .pollReady) (hconf : airConfigured s.radio = true)
    (hair : s.airIn = f :: rest) (hlen : f.bytes.length ≤ 255)
    (ht : Controls i .rxIdle (rxReceived f rest r s) { r with
          line := r.frame.rxRet
          frame := { r.frame with rxLen := BitVec.ofNat 8 f.bytes.length, rxBytes := f.bytes } } →
      Reaches n (rxReceived f rest r s) P) : Reaches (n + 7) s P := by
  refine h.next (h.exec_rx hi hl (congrArg Host.Outcome.next (h.poll _))) rfl rfl rfl fun h => ?_
  refine h.line (h.exec_rx hi rfl (rxStep_start _ _)) (h.reaches_delivered hconf hair hlen fun h => ?_)
  refine h.next (h.exec_rx hi rfl (congrArg Host.Outcome.next (h.poll _))) rfl rfl rfl fun h => ?_
  refine h.next (h.exec_rx hi rfl (rxStep_readLen_of_buf rfl)) rfl rfl rfl fun h => ?_
  exact h.next (h.exec_rx hi rfl (rxStep_readFrame_of_buf rfl rfl hlen)) rfl rfl rfl ht

end

/-! ## TRANSMIT and RECEIVE -/

/-- Settles O29: the host's write, the first line, TransmitBlocking in three parts, the last line; the air gets what the
buffer holds after the stores. -/
theorem transmitReachesTheAir : Obligations.TransmitReachesTheAir := by
  intro s w q n hr hc hi hd hrest hconf hlen
  simp only [exists_and_left]
  refine reaches_started hr hi hd hrest (.inr (.inl rfl)) fun h => ?_
  refine h.next (command_entry ⟨h.halted, h.seqr, rfl⟩ hc fun _ => rfl) rfl rfl rfl fun h => ?_
  refine h.reaches_txStored rfl rfl hlen fun h => ?_
  refine h.next (h.exec_tx rfl rfl (txStep_enable_of_txIdle rfl)) rfl rfl rfl fun h => ?_
  refine h.reaches_txSent rfl rfl hconf fun h => ?_
  refine h.line (command_line ⟨h.halted, h.seqr, rfl⟩ fun _ => rfl) (.zero ?_)
  have head := Memory.read_writeBytes_head s.buf n s.host.inp
  refine ⟨⟨h.halted, rfl⟩, rfl, rfl, h.rests, (s.buf.writeBytes 0 (n :: s.host.inp)).readBytes 1 (n.toNat - 2),
    congrArg (fun b : Byte => s.airOut ++ [.frame b
      ((s.buf.writeBytes 0 (n :: s.host.inp)).readBytes 1 (b.toNat - 2))]) head,
    Memory.length_readBytes _ _ _, fun j hj => ?_, head, fun j hj => ?_,
    fun a ha => Memory.read_writeBytes_past s.buf n ha, rfl, hc, rfl, rfl, rfl⟩
  · rw [Memory.length_readBytes] at hj
    rw [Memory.getElem?_readBytes hj]
    split
    · rw [Memory.read_writeBytes_tail _ _ ‹_›]
    · rw [Memory.read_writeBytes_past _ _ (by omega)]
  · rw [List.getElem?_eq_getElem hj]
    exact congrArg some (Memory.read_writeBytes_tail s.buf n hj).symm

/-- Settles O30: the host's write, the first line, ReceiveBlocking in three parts, the last line, which posts what was
read back from the buffer. -/
theorem receiveReturnsTheAirsFrame : Obligations.ReceiveReturnsTheAirsFrame := by
  intro s w q f rest hr hc hi hd hrest hconf hair hlen
  refine reaches_started hr hi hd hrest (.inr (.inr rfl)) fun h => ?_
  refine h.next (command_entry ⟨h.halted, h.seqr, rfl⟩ hc fun _ => rfl) rfl rfl rfl fun h => ?_
  refine h.reaches_rxPrepared rfl rfl fun h => ?_
  refine h.next (h.exec_rx rfl rfl (rxStep_enable_of_rxIdle rfl)) rfl rfl rfl fun h => ?_
  refine h.reaches_rxReceived rfl rfl hconf hair hlen fun h => ?_
  refine h.line (command_line ⟨h.halted, h.seqr, rfl⟩ fun _ => rfl) (.zero ?_)
  exact ⟨⟨h.halted, rfl⟩, rfl, h.rests, rfl, rfl, rfl, rfl, rfl, fun a ha => Memory.read_writeBytes_past s.buf _ ha⟩

end Sys2Proof.Machine
end

section
/-! PROOFS. The codec round trips: each reader of the MAC decoder takes exactly the bytes the encoder lays out, so a byte
string decodes to a record if and only if it is the record's bytes under a frame control that carries its fields. And
the parsing commands. -/

namespace Sys2Proof.Machine

/-! ## What each reader takes -/

/-- A 16-bit field is read where it is laid out. -/
theorem takeU16_eq_some_iff {B r : Bytes} {v : Half} : takeU16 B = some (v, r) ↔ B = le16 v ++ r :=
  ⟨takeU16_eq_some, fun h => h ▸ takeU16_le16 v r⟩

/-- A 64-bit field is read where it is laid out. -/
theorem takeU64_eq_some_iff {B r : Bytes} {v : Dword} : takeU64 B = some (v, r) ↔ B = le64 v ++ r :=
  ⟨takeU64_eq_some, fun h => h ▸ takeU64_le64 v r⟩

/-- A present address is read under its own PAN, where its bytes are laid out (rules R93, R173). -/
theorem takeAddr_eq_some_iff {a : Addr} (ha : a ≠ .none) {pan : Half} {B r : Bytes} :
    takeAddr (modeOf a) pan B = some (a, r) ↔ pan = panOf a ∧ B = addrBytes a ++ r := by
  cases a with
  | none => exact absurd rfl ha
  | short p x => simp [takeAddr, modeOf, panOf, addrBytes, Option.map_eq_some_iff, takeU16_eq_some_iff, and_comm]
  | extended p x => simp [takeAddr, modeOf, panOf, addrBytes, Option.map_eq_some_iff, takeU64_eq_some_iff, and_comm]

/-- A present address behind its PAN is read where the two are laid out (rules R95, R173). -/
theorem takePanAddr_eq_some_iff {a : Addr} (ha : a ≠ .none) {B r : Bytes} :
    ((takeU16 B).bind fun q => takeAddr (modeOf a) q.1 q.2) = some (a, r) ↔
      B = (le16 (panOf a) ++ addrBytes a) ++ r := by
  simp [Option.bind_eq_some_iff, takeU16_eq_some_iff, takeAddr_eq_some_iff ha]

/-- A record's destination is read where its destination fields are laid out (rules R172, R173). -/
theorem takeDst_eq_some_iff {m : MacFrame} {B r : Bytes} :
    takeDst (modeOf m.dst) B = some (m.dst, r) ↔ B = dstBytes m ++ r := by
  unfold takeDst dstBytes
  simp only [modeOf_eq_zero]
  split
  case isTrue hd => simp [hd]
  case isFalse hd => exact takePanAddr_eq_some_iff hd

/-- The source of a record the decoder can produce is read where its source fields are laid out (rules R95, R172,
R173). -/
theorem takeSrc_eq_some_iff {m : MacFrame} (hm : decodable m) {B r : Bytes} :
    takeSrc (modeOf m.src) m.panIdCompress m.dst B = some (m.src, r) ↔ B = srcBytes m ++ r := by
  obtain ⟨-, -, -, hdst, hpan⟩ := hm
  unfold takeSrc srcBytes srcPanPresent
  simp only [modeOf_eq_zero]
  split
  case isTrue hs => simp [hs]
  case isFalse hs =>
    cases hp : m.panIdCompress with
    | false => exact takePanAddr_eq_some_iff hs
    | true =>
      have hd : m.dst ≠ .none := fun h => hdst ⟨hp, h, hs⟩
      simp [takeAddr_eq_some_iff hs, hd, hpan hp hd hs]

/-- A status is read from its code and from no other byte (rule R100). -/
theorem statusOf_eq_some_iff {c : Byte} {t : AssocStatus} : statusOf c = some t ↔ c = statusCode t := by
  constructor
  · intro h
    unfold statusOf at h
    split at h <;> cases h <;> exact BitVec.eq_of_toNat_eq ‹_›
  · rintro rfl
    cases t <;> rfl

/-- What is read as a command's content is the content's bytes, its identifier first (rules R97, R98, R173). -/
theorem layout_of_takeCommand {id : Byte} {B r : Bytes} {c : Content} (h : takeCommand id B = some (c, r)) :
    id :: B = contentBytes c ++ r := by
  unfold takeCommand at h
  split at h
  case h_1 hn =>
    obtain ⟨cap, hcap, heq⟩ := Option.map_eq_some_iff.mp h
    cases heq
    obtain rfl : id = 0x01 := BitVec.eq_of_toNat_eq hn
    rw [takeU8_eq_some hcap]
    rfl
  case h_2 hn =>
    obtain ⟨a, ha, h⟩ := Option.bind_eq_some_iff.mp h
    obtain ⟨t, ht, h⟩ := Option.bind_eq_some_iff.mp h
    obtain ⟨st, hst, heq⟩ := Option.map_eq_some_iff.mp h
    cases heq
    obtain rfl : id = 0x02 := BitVec.eq_of_toNat_eq hn
    rw [takeU16_eq_some ha, takeU8_eq_some ht, statusOf_eq_some_iff.mp hst]
    simp [contentBytes]
  case h_3 hn => cases h; exact congrArg (· :: B) (BitVec.eq_of_toNat_eq (y := 0x04) hn)
  case h_4 hn => cases h; exact congrArg (· :: B) (BitVec.eq_of_toNat_eq (y := 0x07) hn)
  case h_5 => cases h

/-- The content of a consistent record is read where its bytes are laid out (rules R97, R98, R170, R173). -/
theorem takeContent_eq_some_iff {m : MacFrame} (hm : m.consistent = true) {B r : Bytes} :
    takeContent m.frameType B = some (m.content, r) ↔ B = contentBytes m.content ++ r := by
  constructor
  · intro h
    cases ht : m.frameType with rw [ht] at h
    | command =>
      obtain ⟨id, hid, hc⟩ := Option.bind_eq_some_iff.mp h
      rw [takeU8_eq_some hid, layout_of_takeCommand hc]
    | _ =>
      obtain ⟨hc, hr⟩ := Prod.mk.inj (Option.some.inj h)
      rw [← hc, hr]
      rfl
  · rintro rfl
    unfold MacFrame.consistent at hm
    split at hm
    case h_6 ht hc =>
      rw [ht, hc]
      simp [contentBytes, takeContent, takeCommand, statusOf_eq_some_iff.mpr rfl]
    case h_8 => cases hm
    all_goals rename_i ht hc; rw [ht, hc]; rfl

/-! ## The whole frame -/

/-- A frame control that carries a record the decoder can produce passes the decoder's tests (rules R173, R174). -/
theorem fcRejected_of_carries {fc : Half} {m : MacFrame} (hfc : fcCarries fc m) (hm : decodable m) :
    fcRejected fc = false := by
  obtain ⟨-, hsec, -, -, hpic, hdst, hver, hsrc⟩ := fcCarries_iff.mp hfc
  obtain ⟨-, hsec0, hacc, hnone, -⟩ := hm
  have hmode : ∀ a, modeOf a ≠ 1 := fun a => by cases a <;> simp [modeOf]
  have hcompress : m.panIdCompress = true → modeOf m.dst = 0 → modeOf m.src = 0 := fun hp hd =>
    modeOf_eq_zero.mpr (not_not.mp fun hs => hnone ⟨hp, modeOf_eq_zero.mp hd, hs⟩)
  simp only [fcRejected, hsec, hsec0, hpic, hdst, hver, hsrc, hmode, Params.spec_acceptedVersions]
  simpa [hacc] using hcompress

/-- What reads as a record behind a frame control that carries it is the record's bytes (rules R172, R173). -/
theorem layout_of_decodeBody {fc : Half} {t : FrameType} {m : MacFrame} {B : Bytes} (hfc : fcCarries fc m)
    (hm : decodable m) (h : decodeBody fc t B = some m) :
    B = m.seq :: (dstBytes m ++ (srcBytes m ++ (contentBytes m.content ++ m.payload))) := by
  obtain ⟨-, -, -, -, -, hdst, -, hsrc⟩ := fcCarries_iff.mp hfc
  obtain ⟨⟨sq, B₀⟩, hsq, h⟩ := Option.bind_eq_some_iff.mp h
  obtain ⟨⟨d, B₁⟩, hd, h⟩ := Option.bind_eq_some_iff.mp h
  obtain ⟨⟨a, B₂⟩, ha, h⟩ := Option.bind_eq_some_iff.mp h
  obtain ⟨⟨c, payload⟩, hc, rfl⟩ := Option.map_eq_some_iff.mp h
  rw [hdst] at hd
  rw [hsrc] at ha
  rw [← (takeContent_eq_some_iff hm.1).mp hc, ← (takeSrc_eq_some_iff hm).mp ha, ← takeDst_eq_some_iff.mp hd,
    takeU8_eq_some hsq]

/-- A record's bytes behind a frame control that carries it read as the record, if the decoder can produce it (rules
R172, R173). -/
theorem decodeBody_of_layout {fc : Half} {m : MacFrame} (hfc : fcCarries fc m) (hm : decodable m) :
    decodeBody fc m.frameType (m.seq :: (dstBytes m ++ (srcBytes m ++ (contentBytes m.content ++ m.payload)))) =
      some m := by
  obtain ⟨-, hsec, hpend, hack, hpic, hdst, hver, hsrc⟩ := fcCarries_iff.mp hfc
  have hsec : false = m.security := hm.2.1.symm
  simp only [decodeBody, hsec, hpend, hack, hpic, hdst, hver, hsrc, takeU8_cons, Option.bind_some,
    takeDst_eq_some_iff.mpr rfl, (takeSrc_eq_some_iff hm).mpr rfl, (takeContent_eq_some_iff hm.1).mpr rfl,
    Option.map_some]

/-- A byte string decodes to a record if and only if the record is one the decoder can produce and the byte string is its
bytes behind a frame control that carries its fields (rules R172 to R174). -/
theorem decodeFrame_eq_some_iff {B : Bytes} {m : MacFrame} :
    decodeFrame B = some m ↔ decodable m ∧ ∃ fc : Half, fcCarries fc m ∧
      B = le16 fc ++ (m.seq :: (dstBytes m ++ (srcBytes m ++ (contentBytes m.content ++ m.payload)))) := by
  constructor
  · intro h
    obtain ⟨⟨fc, rest⟩, hfc, h⟩ := Option.bind_eq_some_iff.mp h
    obtain ⟨t, ht, h⟩ := Option.bind_eq_some_iff.mp h
    split at h
    case isTrue => cases h
    case isFalse hrej =>
      obtain ⟨hm, hcarries, -⟩ := decodeBody_eq_some (by simpa using hrej) ht h
      refine ⟨hm, fc, hcarries, ?_⟩
      rw [takeU16_eq_some hfc, layout_of_decodeBody hcarries hm h]
  · rintro ⟨hm, fc, hfc, rfl⟩
    have ht : frameTypeOf (fc.extractLsb' 0 3) = some m.frameType := by
      rw [(fcCarries_iff.mp hfc).1]
      cases m.frameType <;> rfl
    simp only [decodeFrame, takeU16_le16, Option.bind_some, ht, fcRejected_of_carries hfc hm]
    exact decodeBody_of_layout hfc hm

/-! ## The round trips -/

/-- Settles O35: the record's bytes stand behind its own frame control. -/
theorem macDecodeOfEncode : Obligations.MacDecodeOfEncode := fun m hm =>
  decodeFrame_eq_some_iff.mpr ⟨hm, frameControl m, (frameControl_carries m).1, rfl⟩

/-- A flag's one-bit field is the word's field there (rule R172). -/
theorem bit_getLsbD {n : Nat} (x : BitVec n) (k : Nat) : bit (x.getLsbD k) = x.extractLsb' k 1 := by
  ext i hi
  obtain rfl : i = 0 := by omega
  cases hb : x.getLsbD k <;> simp [bit, hb]

/-- A frame control is its fields and its reserved bits put together (rule R91). -/
theorem frameControl_fields (fc : Half) :
    fc = fc.extractLsb' 14 2 ++ fc.extractLsb' 12 2 ++ fc.extractLsb' 10 2 ++ fc.extractLsb' 7 3 ++ fc.extractLsb' 6 1 ++
      fc.extractLsb' 5 1 ++ fc.extractLsb' 4 1 ++ fc.extractLsb' 3 1 ++ fc.extractLsb' 0 3 := by
  simp (disch := omega) only [BitVec.extractLsb'_append_extractLsb'_eq_extractLsb']
  simp

/-- A frame control that carries a record, its reserved bits zero, is the record's own (rules R91, R172). -/
theorem eq_frameControl {fc : Half} {m : MacFrame} (hfc : fcCarries fc m) (hz : fc.extractLsb' 7 3 = 0#3) :
    fc = frameControl m := by
  obtain ⟨ht, hsec, hpend, hack, hpic, hdst, hver, hsrc⟩ := fcCarries_iff.mp hfc
  rw [frameControl, ← ht, ← hsec, ← hpend, ← hack, ← hpic, ← hdst, ← hver, ← hsrc, ← hz]
  simp only [bit_getLsbD]
  exact frameControl_fields fc

/-- Settles O36: the frame control is the record's own, for it carries the record and its reserved bits are zero. -/
theorem macEncodeOfDecode : Obligations.MacEncodeOfDecode := by
  rintro _ m a b rest h rfl hz
  obtain ⟨-, fc, hfc, hB⟩ := decodeFrame_eq_some_iff.mp h
  have hword := congrArg takeU16 hB
  rw [takeU16_le16] at hword
  obtain ⟨rfl, -⟩ := Prod.mk.inj (Option.some.inj hword)
  rw [hB, eq_frameControl hfc hz]
  rfl

/-! ## The parsing commands -/

/-- A parsing command, at its line, whose parser answers ends with its result (rules R14, R252). -/
theorem oneStep_postParsed_some {α : Type} {s : State} {r : Run} (hr : runs s r .entry) {parse : Run → Option α}
    {value : α → Value} {v : α} (hv : parse r = some v) :
    oneStep s (fun q => postParsed ((parse q).map value) s) = .next (ended .ok (some (value v)) s) := by
  obtain ⟨hh, hs, hl⟩ := hr
  rw [oneStep_entry hh hs hl, hv]
  rfl

/-- A parsing command, at its line, whose parser rejects the input ends with PARSE_ERROR and no value (rule R252). -/
theorem oneStep_postParsed_none {α : Type} {s : State} {r : Run} (hr : runs s r .entry) {parse : Run → Option α}
    {value : α → Value} (hv : parse r = none) :
    oneStep s (fun q => postParsed ((parse q).map value) s) = .next (ended .parseError none s) := by
  obtain ⟨hh, hs, hl⟩ := hr
  rw [oneStep_entry hh hs hl, hv]
  rfl

/-- From a start inside the input or at its end, the security header is what `parseSecHdr` reads (rule R235). -/
theorem parseSecHdrAt_of_le {B : Bytes} {start : Nat} (h : start ≤ B.length) :
    parseSecHdrAt B start = parseSecHdr B start := if_neg (Nat.not_lt.mpr h)

/-- A start past the end is rejected (rule R235). -/
theorem parseSecHdrAt_of_lt {B : Bytes} {start : Nat} (h : B.length < start) : parseSecHdrAt B start = none := if_pos h

/-- Settles O34: the parsers' answers, posted by `oneStep_postParsed_some` and `oneStep_postParsed_none`. -/
theorem parsersPostTheirResult : Obligations.ParsersPostTheirResult := by
  intro s r hr
  refine ⟨fun m h => ?_, fun h => ?_, fun w => ?_, fun f h => ?_, fun h => ?_, fun p h e hp hh => ?_, fun p hp h => ?_,
    fun p hp => ?_⟩
  · exact oneStep_postParsed_some hr h
  · exact oneStep_postParsed_none hr h
  · exact oneStep_postParsed_some (parse := fun _ => some (parseFcf w)) (value := Value.fcf) hr rfl
  · exact oneStep_postParsed_some hr h
  · exact oneStep_postParsed_none hr h
  · exact oneStep_postParsed_some (parse := fun q => parseSecHdrAt q.frame.ops.inp p)
      (value := fun x => .securityHeader x.1 x.2) hr ((parseSecHdrAt_of_le hp).trans hh)
  · exact oneStep_postParsed_none hr ((parseSecHdrAt_of_le hp).trans h)
  · exact oneStep_postParsed_none hr (parseSecHdrAt_of_lt hp)

end Sys2Proof.Machine
end

section
/-! PROOFS. The session engine line by line: which frames are addressed to the device, and every line of
ReceiveOnceProc, of WriteAndExpectAckProc and of ASSOCIATE. -/

namespace Sys2Proof.Machine

/-! ## The address match -/

/-- Settles O44: the three kinds of destination. -/
theorem addressMatch : Obligations.AddressMatch := by
  refine fun m s => ⟨fun h => ?_, fun p a h => ?_, fun p a h => ?_⟩ <;> simp [addressedToMe, h]

/-! ## ReceiveOnceProc -/

section
variable {m : MacFrame} {r : Run} {s : State}

/-- A received frame that does not decode is logged next (rule R203). -/
theorem onceStep_decode_none (hd : decodeFrame (trimFcs r.frame.rxLen r.frame.rxBytes) = none) :
    onceStep .decode r s = standing s r (.once .logParse) { r.frame with mac := none, nwk := .notForwarded } := by
  simp only [onceStep, onceDecode, hd]
  rfl

/-- A decoded frame for others ends ReceiveOnceProc (rules R200, R203). -/
theorem onceStep_decode_notAddressed (hd : decodeFrame (trimFcs r.frame.rxLen r.frame.rxBytes) = some m)
    (ha : addressedToMe m s = false) :
    onceStep .decode r s = standing s r r.frame.onceRet { r.frame with mac := some m, nwk := .notForwarded } := by
  simp only [onceStep, onceDecode, hd, ha]
  rfl

/-- A decoded frame for the device that asks for no acknowledgement is dispatched next (rules R201, R203). -/
theorem onceStep_decode_dispatch (hd : decodeFrame (trimFcs r.frame.rxLen r.frame.rxBytes) = some m)
    (ha : addressedToMe m s = true) (hack : m.ackRequest = false) :
    onceStep .decode r s = standing s r (.once .dispatch) { r.frame with mac := some m, nwk := .notForwarded } := by
  simp only [onceStep, onceDecode, hd, ha, hack]
  rfl

/-- A decoded frame for the device that asks for an acknowledgement is acknowledged next (rules R178, R203). -/
theorem onceStep_decode_ack (hd : decodeFrame (trimFcs r.frame.rxLen r.frame.rxBytes) = some m)
    (ha : addressedToMe m s = true) (hack : m.ackRequest = true) :
    onceStep .decode r s = standing s r (.tx .check)
      { r.frame with
        mac := some m
        nwk := .notForwarded
        txBytes := [0x02, 0x00, m.seq]
        txOnAir := 5
        txRet := .once .dispatch } := by
  simp only [onceStep, onceDecode, hd, ha, hack, encodeFrame_ack]
  rfl

/-- The session registers after a frame's dispatch: an association response assigns its short address (rule R201). -/
def Session.afterDispatch (m : MacFrame) (x : Session) : Session :=
  { x with assignedShort := match m.content with
      | .associationResponse a _ => some a
      | _ => x.assignedShort }

/-- `dispatch` writes the session registers alone. -/
theorem dispatch_eq (m : MacFrame) (s : State) : dispatch m s = { s with session := s.session.afterDispatch m } := by
  unfold dispatch Session.afterDispatch
  cases m.content <;> rfl

/-- After its dispatch a Data frame goes on to the NWK codec; any other ends ReceiveOnceProc (rules R201, R202). -/
theorem onceStep_dispatch_some (hm : r.frame.mac = some m) :
    onceStep .dispatch r s =
      { standing s r (if m.frameType = .data then .once .nwk else r.frame.onceRet) r.frame with
        session := s.session.afterDispatch m } := by
  simp only [onceStep, onceDispatch, hm, dispatch_eq]
  split <;> rfl

/-- A forwarded payload that parses (rule R202). -/
theorem onceStep_nwk_parsed {f : NwkFrame} (hm : r.frame.mac = some m) (hp : parsePacket m.payload = some f) :
    onceStep .nwk r s = standing s r r.frame.onceRet { r.frame with nwk := .parsed f } := by
  simp only [onceStep, onceNwk, nwkOutcomeOf, hm, hp]
  rfl

/-- A forwarded payload that does not parse is logged next (rule R202). -/
theorem onceStep_nwk_parseError (hm : r.frame.mac = some m) (hp : parsePacket m.payload = none) :
    onceStep .nwk r s = standing s r (.once .logNwk) { r.frame with nwk := .parseError } := by
  simp only [onceStep, onceNwk, nwkOutcomeOf, hm, hp]
  rfl

end

/-- Settles O43: the lines of `onceStep`, one by one. -/
theorem receiveOnceLines : Obligations.ReceiveOnceLines := by
  intro i s r hi
  have line : ∀ {l t}, onceStep l r s = t → runs s r (.once l) → exec i s = .next t :=
    fun ht ⟨hh, hs, hl⟩ => (exec_eq_onceStep hh hs hi hl).trans (congrArg _ ht)
  exact ⟨fun h => ⟨fun hd => line (onceStep_decode_none hd) h, fun m hd =>
      ⟨fun ha => line (onceStep_decode_notAddressed hd ha) h,
        fun ha hack => line (onceStep_decode_dispatch hd ha hack) h,
        fun ha hack => line (onceStep_decode_ack hd ha hack) h⟩⟩,
    line rfl, fun h m hm => line (onceStep_dispatch_some hm) h,
    fun h m hm => ⟨fun f hp => line (onceStep_nwk_parsed hm hp) h, fun hp => line (onceStep_nwk_parseError hm hp) h⟩,
    line rfl⟩

/-! ## WriteAndExpectAckProc -/

section
variable {r : Run} {s : State}

/-- A byte string that fits a packet is transmitted, its on-air length with the FCS (rules R205, R214). -/
theorem waitStep_check_fits (hlen : r.frame.waitBytes.length ≤ 253) :
    waitStep .check r s = standing s r (.tx .check)
      { r.frame with
        txBytes := r.frame.waitBytes
        txOnAir := BitVec.ofNat 8 (r.frame.waitBytes.length + 2)
        txRet := .wait .loop } :=
  if_neg (Nat.not_lt.mpr hlen)

/-- A longer one halts the block (rule R205). -/
theorem waitStep_check_overflow (hlen : 253 < r.frame.waitBytes.length) :
    waitStep .check r s = stopped .bufferOverflow s := if_pos hlen

/-- With an attempt left the wait calls ReceiveOnceProc (rule R205). -/
theorem waitStep_loop_attempt (hk : r.frame.k < 30) :
    waitStep .loop r s =
      standing s r (.rx .shorts) { r.frame with onceRet := .wait .tally, rxRet := .once .decode } := if_pos hk

/-- With none left it fails (rule R205). -/
theorem waitStep_loop_timeout (hk : 30 ≤ r.frame.k) :
    waitStep .loop r s = standing s r r.frame.waitRet { r.frame with acked := false } := if_neg (Nat.not_lt.mpr hk)

/-- A received frame matches a wait if it is an acknowledgement of its sequence number (rule R204). -/
theorem ackMatches_eq_true {x : Option MacFrame} {seq : Byte} :
    ackMatches x seq = true ↔ ∃ m, x = some m ∧ m.frameType = .ack ∧ m.seq = seq := by
  cases x <;> simp [ackMatches]

/-- An attempt that ends with a match ends the wait (rules R204, R205). -/
theorem waitStep_tally_acked (hm : ackMatches r.frame.mac r.frame.waitSeq = true) :
    waitStep .tally r s = standing s r r.frame.waitRet { r.frame with k := r.frame.k + 1, acked := true } := if_pos hm

/-- An attempt that ends without one is counted (rules R204, R205). -/
theorem waitStep_tally_again (hm : ackMatches r.frame.mac r.frame.waitSeq = false) :
    waitStep .tally r s = standing s r (.wait .loop) { r.frame with k := r.frame.k + 1 } :=
  if_neg (Bool.eq_false_iff.mp hm)

end

/-- Settles O46: the lines of `waitStep`, one by one. -/
theorem waitLines : Obligations.WaitLines := by
  intro i s r hi
  have line : ∀ {l t}, waitStep l r s = t → runs s r (.wait l) → exec i s = .next t :=
    fun ht ⟨hh, hs, hl⟩ => (exec_eq_waitStep hh hs hi hl).trans (congrArg _ ht)
  refine ⟨fun h hlen => line (waitStep_check_fits hlen) h, fun h hlen => line (waitStep_check_overflow hlen) h,
    fun h hk => line (waitStep_loop_attempt hk) h, fun h hk => line (waitStep_loop_timeout hk) h,
    fun h => ⟨fun m hm hack hseq => ?_, fun hno => ?_⟩⟩
  · exact line (waitStep_tally_acked (ackMatches_eq_true.mpr ⟨m, hm, hack, hseq⟩)) h
  · refine line (waitStep_tally_again (Bool.eq_false_iff.mpr fun hmatch => ?_)) h
    obtain ⟨m, hm, hack, hseq⟩ := ackMatches_eq_true.mp hmatch
    exact hno m hm hack hseq

/-! ## ASSOCIATE -/

section
variable {r : Run} {s : State}

/-- ASSOCIATE's line `l` (rule R213). -/
theorem exec_assocStep {l : AssocLine} (h : runs s r (.assoc l)) : exec .associate s = .next (assocStep l r s) :=
  command_line h fun hl => by rw [hl]

/-- The association request ASSOCIATE sends, from the sampled operands and the own address (rules R101, R213). -/
def assocRequestWire (ops : HostRegs) (ext : Dword) : Bytes :=
  [0x23, 0xc8, 0x2b] ++ le16 ops.dpan ++ le16 ops.dshort ++ [0xff, 0xff] ++ le64 ext ++ [0x01, ops.cap]

/-- The data request ASSOCIATE sends (rules R101, R213). -/
def dataRequestWire (ops : HostRegs) (ext : Dword) : Bytes :=
  [0x23, 0xc8, 0x2c] ++ le16 ops.dpan ++ le16 ops.dshort ++ le16 ops.span ++ le64 ext ++ [0x04]

/-- An association request fits a packet. -/
@[simp] theorem length_assocRequestWire (ops : HostRegs) (ext : Dword) : (assocRequestWire ops ext).length = 19 := rfl

/-- A data request fits a packet. -/
@[simp] theorem length_dataRequestWire (ops : HostRegs) (ext : Dword) : (dataRequestWire ops ext).length = 18 := rfl

/-- The association request's call of the wait (rules R176, R213). -/
theorem assocStep_request : assocStep .request r s = standing s r (.wait .check)
    { r.frame with
      waitSeq := 43
      waitBytes := assocRequestWire r.frame.ops s.ownExtended
      k := 0
      waitRet := .assoc .afterRequest } := by
  rw [assocStep, associateRequestBytes, encodeFrame_assocRequest]
  rfl

/-- The data request's call of the wait (rules R177, R213). -/
theorem assocStep_dataRequest : assocStep .dataRequest r s = standing s r (.wait .check)
    { r.frame with
      waitSeq := 44
      waitBytes := dataRequestWire r.frame.ops s.ownExtended
      k := 0
      waitRet := .assoc .afterDataRequest } :=
  congrArg (fun b => callWait 44 b (.assoc .afterDataRequest) r s) (encodeFrame_dataRequest _ _ _ _ _)

/-- An acknowledged association request activates the extended address (rules R27, R213). -/
theorem assocStep_afterRequest_acked (ha : r.frame.acked = true) :
    assocStep .afterRequest r s =
      { standing s r (.assoc .setAcked) r.frame with session := { s.session with extActive := true } } := if_pos ha

/-- One that is not is logged (rule R213). -/
theorem assocStep_afterRequest_timeout (ha : r.frame.acked = false) :
    assocStep .afterRequest r s =
      { standing s r (.assoc .abort) r.frame with sink := s.sink ++ [.msgAssocTimeout] } :=
  if_neg (Bool.eq_false_iff.mp ha)

/-- An acknowledged data request reaches the last phase (rules R29, R213). -/
theorem assocStep_afterDataRequest_acked (ha : r.frame.acked = true) :
    assocStep .afterDataRequest r s =
      { standing s r (.assoc .logDataReqAcked) r.frame with
        session := { s.session with handshake := .dataReqAcked } } := if_pos ha

/-- One that is not is logged (rule R213). -/
theorem assocStep_afterDataRequest_timeout (ha : r.frame.acked = false) :
    assocStep .afterDataRequest r s =
      { standing s r (.assoc .fail) r.frame with sink := s.sink ++ [.msgDataReqTimeout] } :=
  if_neg (Bool.eq_false_iff.mp ha)

end

/-- Settles O49: the lines of `assocStep`, one by one. -/
theorem associateLines : Obligations.AssociateLines := by
  intro s r
  have line : ∀ {l t}, assocStep l r s = t → runs s r (.assoc l) → exec .associate s = .next t :=
    fun ht h => (exec_assocStep h).trans (congrArg _ ht)
  exact ⟨line assocStep_request, fun h ha => line (assocStep_afterRequest_acked ha) h,
    fun h ha => line (assocStep_afterRequest_timeout ha) h, line rfl, line rfl, line rfl, line assocStep_dataRequest,
    fun h ha => line (assocStep_afterDataRequest_acked ha) h, line rfl,
    fun h ha => line (assocStep_afterDataRequest_timeout ha) h, line rfl⟩

end Sys2Proof.Machine
end

section
/-! PROOFS. Runs of the session engine in the prompt order (log 2): the two radio procedures whole, with the ramp-up
they ask for, then an attempt of a wait, a wait that is acknowledged, and the commands from the host's write to RES. -/

namespace Sys2Proof.Machine

/-! ## What a part of a run exchanges with the air -/

/-- From `s` to `t` the air receives the frames `sent` and delivers the frames `taken`; the registers, the sink and the
host's queue are as they were, and so is whether the configuration is that of rule R168. -/
structure Exchange (s t : State) (sent : List AirTx) (taken : List AirFrame) : Prop where
  airOut : t.airOut = s.airOut ++ sent
  airIn : s.airIn = taken ++ t.airIn
  conf : airConfigured t.radio = airConfigured s.radio
  session : t.session = s.session
  ownExtended : t.ownExtended = s.ownExtended
  sink : t.sink = s.sink
  hostQ : t.hostQ = s.hostQ

section
variable {s t u : State} {sent sent' : List AirTx} {taken taken' : List AirFrame}

/-- Nothing happens in no time. -/
theorem Exchange.refl (s : State) : Exchange s s [] [] :=
  ⟨(List.append_nil _).symm, rfl, rfl, rfl, rfl, rfl, rfl⟩

/-- One part of a run after another. -/
theorem Exchange.trans (h : Exchange s t sent taken) (h' : Exchange t u sent' taken') :
    Exchange s u (sent ++ sent') (taken ++ taken') where
  airOut := by rw [h'.airOut, h.airOut, List.append_assoc]
  airIn := by rw [h.airIn, h'.airIn, List.append_assoc]
  conf := h'.conf.trans h.conf
  session := h'.session.trans h.session
  ownExtended := h'.ownExtended.trans h.ownExtended
  sink := h'.sink.trans h.sink
  hostQ := h'.hostQ.trans h.hostQ

/-- A line that moves the sequencer alone, before. -/
theorem Exchange.of_standing {r : Run} {l : Line} {f : Frame} (h : Exchange (standing s r l f) t sent taken) :
    Exchange s t sent taken :=
  ⟨h.airOut, h.airIn, h.conf, h.session, h.ownExtended, h.sink, h.hostQ⟩

/-- A line that moves the sequencer alone, after. -/
theorem Exchange.to_standing (h : Exchange s t sent taken) (r : Run) (l : Line) (f : Frame) :
    Exchange s (standing t r l f) sent taken :=
  ⟨h.airOut, h.airIn, h.conf, h.session, h.ownExtended, h.sink, h.hostQ⟩

/-- A frame is addressed to the device after it if it was before (rule R200). -/
theorem Exchange.addressedToMe_eq (h : Exchange s t sent taken) (m : MacFrame) :
    addressedToMe m t = addressedToMe m s :=
  addressedToMe_congr m h.session h.ownExtended

/-- RES as a step that posts writes it, the session registers being what they were (rule R255). -/
theorem Exchange.posted_eq (h : Exchange s t sent taken) (st : Status) (x : Option HaltReason) (v : Option Value) :
    posted st x v t = posted st x v s := by
  rw [posted, h.session]
  rfl

end

/-! ## Ramp-up -/

/-- With TXEN pending the radio takes it, and accepts it. -/
theorem promptTurn_txen {s : State} (hp : s.pending.txen = true) : promptTurn s = .radio (.takeTxen true) := by
  simp [promptTurn, hp]

/-- With RXEN pending and not TXEN the radio takes it, and accepts it. -/
theorem promptTurn_rxen {s : State} (ht : s.pending.txen = false) (hp : s.pending.rxen = true) :
    promptTurn s = .radio (.takeRxen true) := by
  simp [promptTurn, ht, hp]

/-- A ramp-up ends before the controller's next line. -/
theorem promptTurn_rampUp {s : State} {q : RadioState} (hq : q = .txRampUp ∨ q = .rxRampUp) (hr : radioRests s q) :
    promptTurn s = .radio .rampUp := by
  obtain ⟨hs, hp⟩ := hr
  obtain rfl | rfl := hq <;> simp [promptTurn, hs, hp]

/-- The state after a ramp-up that leaves the radio in `q`, ready (rules R35, R164). -/
def rampedUp (q : RadioState) (s : State) : State :=
  { s with
    pending := { txen := false, rxen := false, start := false }
    rstate := q
    radio := { s.radio with eventsReady := setEvent s.radio.eventsReady } }

section
variable {i : Instr} {q : RadioState} {s t : State} {r r' : Run} {n : Nat} {P : State → Prop}

/-- A pending TXEN is taken outside TxIdle, and the ramp-up ends (rules R162, R164). -/
theorem reaches_txRampedUp (hp : s.pending = { txen := true, rxen := false, start := false })
    (hq : s.rstate = .disabled ∨ s.rstate = .rxIdle) (ht : s.turns = []) (h : Reaches n (rampedUp .txIdle s) P) :
    Reaches (n + 2) s P := by
  refine .radio (promptTurn_txen (by rw [hp])) ht ?_
  have htaken : radioStep (.takeTxen true) s = _ := takeTxen_pending true (by rw [hp])
  rw [htaken, if_pos (by simpa using hq)]
  refine .radio (promptTurn_rampUp (.inl rfl) ⟨rfl, by simp [hp]⟩) ht ?_
  simpa [rampedUp, radioStep, rampUp, hp] using h

/-- A pending RXEN is taken outside RxIdle, and the ramp-up ends (rules R163, R164). -/
theorem reaches_rxRampedUp (hp : s.pending = { txen := false, rxen := true, start := false })
    (hq : s.rstate = .disabled ∨ s.rstate = .txIdle) (ht : s.turns = []) (h : Reaches n (rampedUp .rxIdle s) P) :
    Reaches (n + 2) s P := by
  refine .radio (promptTurn_rxen (by rw [hp]) (by rw [hp])) ht ?_
  have htaken : radioStep (.takeRxen true) s = _ := takeRxen_pending true (by rw [hp])
  rw [htaken, if_pos (by simpa using hq)]
  refine .radio (promptTurn_rampUp (.inr rfl) ⟨rfl, by simp [hp]⟩) ht ?_
  simpa [rampedUp, radioStep, rampUp, hp] using h

/-! ## TransmitBlocking whole -/

/-- The state after TransmitBlocking's write of TXEN (rules R34, R137). -/
def txenWritten (r : Run) (s : State) : State :=
  { standing s r (.tx .pollReady) r.frame with
    pending := { s.pending with txen := true }
    tasks := { s.tasks with txen := Config.taskRead s.tasks.writes, writes := s.tasks.writes + 1 } }

/-- The enable task is written where STATE showed another state than TxIdle (rule R137). -/
theorem txStep_enable_of_ne (hw : r.frame.stateRead = q.code.setWidth 32) (hq : q ≠ .txIdle) :
    txStep .enable r s = .next (txenWritten r s) :=
  if_neg (by rw [hw, shows_code]; simpa using hq)

/-- Outside TxIdle, TransmitBlocking's enable line brings the radio there. -/
theorem Controls.reaches_txEnabled (h : Controls i q s r) (hi : callsTransmit i = true) (hl : r.line = .tx .enable)
    (hw : r.frame.stateRead = q.code.setWidth 32) (hq : q ≠ .txIdle)
    (ht : Controls i .txIdle (rampedUp .txIdle (txenWritten r s)) { r with line := .tx .pollReady } →
      Reaches n (rampedUp .txIdle (txenWritten r s)) P) : Reaches (n + 3) s P := by
  obtain ⟨hs, hp⟩ := h.rests
  refine h.line (h.exec_tx hi hl (txStep_enable_of_ne hw hq)) ?_
  refine reaches_txRampedUp (by simp [txenWritten, hp]) ?_ h.turns ?_
  · obtain rfl | rfl | rfl := h.atRest
    · exact .inl hs
    · exact absurd rfl hq
    · exact .inr hs
  · exact ht ⟨h.halted, rfl, h.cmd, h.turns, ⟨rfl, rfl⟩, .inr (.inl rfl)⟩

/-- A frame in the buffer behind an on-air length that counts its bytes and the FCS goes out whole (rule R165). -/
theorem airFrame_of_buf (m : Memory) {len : Byte} {bs : Bytes} (hlen : len.toNat = bs.length + 2) :
    AirTx.frame ((m.writeBytes 0 (len :: bs)).read 0)
        ((m.writeBytes 0 (len :: bs)).readBytes 1 (((m.writeBytes 0 (len :: bs)).read 0).toNat - 2)) =
      .frame len bs := by
  rw [Memory.read_writeBytes_head, hlen, Nat.add_sub_cancel]
  exact congrArg _ (Memory.readBytes_writeBytes _ 1 bs)

/-- TransmitBlocking from a state other than TxIdle, its on-air length counting its bytes and the FCS: they go out. -/
theorem Controls.reaches_transmitted (h : Controls i q s r) (hi : callsTransmit i = true) (hl : r.line = .tx .check)
    (hq : q ≠ .txIdle) (hconf : airConfigured s.radio = true)
    (hlen : r.frame.txOnAir.toNat = r.frame.txBytes.length + 2)
    (ht : ∀ t, Controls i .txIdle t
        { r with line := r.frame.txRet, frame := { r.frame with stateRead := q.code.setWidth 32 } } →
      Exchange s t [.frame r.frame.txOnAir r.frame.txBytes] [] → Reaches n t P) : Reaches (n + 13) s P := by
  have := r.frame.txOnAir.isLt
  refine h.reaches_txStored hi hl (by omega) fun h => ?_
  refine h.reaches_txEnabled hi rfl rfl hq fun h => ?_
  refine h.reaches_txSent hi rfl hconf fun h => ht _ h ⟨?_, rfl, rfl, rfl, rfl, rfl, rfl⟩
  exact congrArg (fun x => s.airOut ++ [x]) (airFrame_of_buf s.buf hlen)

/-! ## ReceiveBlocking whole -/

/-- The state after ReceiveBlocking's write of RXEN (rules R34, R138). -/
def rxenWritten (r : Run) (s : State) : State :=
  { standing s r (.rx .pollReady) r.frame with
    pending := { s.pending with rxen := true }
    tasks := { s.tasks with rxen := Config.taskRead s.tasks.writes, writes := s.tasks.writes + 1 } }

/-- The enable task is written where STATE showed another state than RxIdle (rule R138). -/
theorem rxStep_enable_of_ne (hw : r.frame.stateRead = q.code.setWidth 32) (hq : q ≠ .rxIdle) :
    rxStep .enable r s = .next (rxenWritten r s) :=
  if_neg (by rw [hw, shows_code]; simpa using hq)

/-- Outside RxIdle, ReceiveBlocking's enable line brings the radio there. -/
theorem Controls.reaches_rxEnabled (h : Controls i q s r) (hi : callsReceive i = true) (hl : r.line = .rx .enable)
    (hw : r.frame.stateRead = q.code.setWidth 32) (hq : q ≠ .rxIdle)
    (ht : Controls i .rxIdle (rampedUp .rxIdle (rxenWritten r s)) { r with line := .rx .pollReady } →
      Reaches n (rampedUp .rxIdle (rxenWritten r s)) P) : Reaches (n + 3) s P := by
  obtain ⟨hs, hp⟩ := h.rests
  refine h.line (h.exec_rx hi hl (rxStep_enable_of_ne hw hq)) ?_
  refine reaches_rxRampedUp (by simp [rxenWritten, hp]) ?_ h.turns ?_
  · obtain rfl | rfl | rfl := h.atRest
    · exact .inl hs
    · exact .inr hs
    · exact absurd rfl hq
  · exact ht ⟨h.halted, rfl, h.cmd, h.turns, ⟨rfl, rfl⟩, .inr (.inr rfl)⟩

/-- The local values after a reception of `f` that began in the radio's state `q` (rule R138). -/
def Frame.received (x : Frame) (q : RadioState) (f : AirFrame) : Frame :=
  { x with stateRead := q.code.setWidth 32, rxLen := BitVec.ofNat 8 f.bytes.length, rxBytes := f.bytes }

variable {f : AirFrame} {rest : List AirFrame}

/-- ReceiveBlocking from RxIdle takes the frame that waits in the air. -/
theorem Controls.reaches_received (h : Controls i .rxIdle s r) (hi : callsReceive i = true)
    (hl : r.line = .rx .shorts) (hconf : airConfigured s.radio = true) (hair : s.airIn = f :: rest)
    (hlen : f.bytes.length ≤ 255)
    (ht : ∀ t, Controls i .rxIdle t { r with line := r.frame.rxRet, frame := r.frame.received .rxIdle f } →
      Exchange s t [] [f] → Reaches n t P) :
    Reaches (n + 10) s P := by
  refine h.reaches_rxPrepared hi hl fun h => ?_
  refine h.next (h.exec_rx hi rfl (rxStep_enable_of_rxIdle rfl)) rfl rfl rfl fun h => ?_
  exact h.reaches_rxReceived hi rfl hconf hair hlen fun h =>
    ht _ h ⟨(List.append_nil _).symm, hair, rfl, rfl, rfl, rfl, rfl⟩

/-- ReceiveBlocking from another state enables the receiver first. -/
theorem Controls.reaches_received_of_ne (h : Controls i q s r) (hi : callsReceive i = true)
    (hl : r.line = .rx .shorts) (hq : q ≠ .rxIdle) (hconf : airConfigured s.radio = true)
    (hair : s.airIn = f :: rest) (hlen : f.bytes.length ≤ 255)
    (ht : ∀ t, Controls i .rxIdle t { r with line := r.frame.rxRet, frame := r.frame.received q f } →
      Exchange s t [] [f] → Reaches n t P) :
    Reaches (n + 12) s P := by
  refine h.reaches_rxPrepared hi hl fun h => ?_
  refine h.reaches_rxEnabled hi rfl rfl hq fun h => ?_
  exact h.reaches_rxReceived hi rfl hconf hair hlen fun h =>
    ht _ h ⟨(List.append_nil _).symm, hair, rfl, rfl, rfl, rfl, rfl⟩

/-! ## ReceiveOnceProc and WriteAndExpectAckProc -/

/-- A command that calls WriteAndExpectAckProc calls ReceiveOnceProc through it (rule R205). -/
theorem callsOnce_of_callsWait (hi : callsWait i = true) : callsOnce i = true := by
  cases i <;> simp_all [callsWait, callsOnce]

/-- A command that calls ReceiveOnceProc calls ReceiveBlocking through it (rule R203). -/
theorem callsReceive_of_callsOnce (hi : callsOnce i = true) : callsReceive i = true := by
  cases i <;> simp_all [callsOnce, callsReceive]

/-- A command that calls ReceiveOnceProc calls TransmitBlocking through it (rule R203). -/
theorem callsTransmit_of_callsOnce (hi : callsOnce i = true) : callsTransmit i = true := by
  cases i <;> simp_all [callsOnce, callsTransmit]

/-- The line of a command that calls ReceiveOnceProc. -/
theorem Controls.exec_once {l : OnceLine} (h : Controls i q s r) (hi : callsOnce i = true) (hl : r.line = .once l)
    (ht : onceStep l r s = t) : exec i s = .next t :=
  (exec_eq_onceStep h.halted h.seqr hi hl).trans (congrArg _ ht)

/-- The line of a command that calls WriteAndExpectAckProc. -/
theorem Controls.exec_wait {l : WaitLine} (h : Controls i q s r) (hi : callsWait i = true) (hl : r.line = .wait l)
    (ht : waitStep l r s = t) : exec i s = .next t :=
  (exec_eq_waitStep h.halted h.seqr hi hl).trans (congrArg _ ht)

/-- What is decoded of a received frame is the frame without its FCS (rule R203). -/
theorem decodeFrame_trimFcs (hlen : f.bytes.length ≤ 255) :
    decodeFrame (trimFcs (BitVec.ofNat 8 f.bytes.length) f.bytes) =
      decodeFrame (f.bytes.take (f.bytes.length - 2)) := by
  rw [trimFcs, BitVec.toNat_ofNat, Nat.mod_eq_of_lt (by omega)]
  rfl

/-- The loop of a wait for the sequence number `seq`, to return to the line `ret`, after `k` attempts (rule R205). -/
structure AtLoop (seq : Byte) (ret : Line) (k : Nat) (r : Run) : Prop where
  line : r.line = .wait .loop
  waitSeq : r.frame.waitSeq = seq
  waitRet : r.frame.waitRet = ret
  k : r.frame.k = k

variable {seq : Byte} {ret : Line} {k : Nat}

/-- A frame that fails quietly does so later too. -/
theorem Exchange.failsQuietly {sent : List AirTx} {taken : List AirFrame} (h : Exchange s t sent taken)
    (hf : failsQuietly s seq f) : failsQuietly t seq f := by
  obtain ⟨hlen, m, hd, ha, hm⟩ := hf
  exact ⟨hlen, m, hd, (h.addressedToMe_eq m).trans ha, hm⟩

/-- An attempt, on a frame that fails quietly, is counted (rules R200, R204, R205). -/
theorem Controls.reaches_nextAttempt (h : Controls i .rxIdle s r) (hi : callsWait i = true) (hr : AtLoop seq ret k r)
    (hk : k < 30) (hconf : airConfigured s.radio = true) (hair : s.airIn = f :: rest) (hf : failsQuietly s seq f)
    (ht : ∀ t r', Controls i .rxIdle t r' → Exchange s t [] [f] → AtLoop seq ret (k + 1) r' → Reaches n t P) :
    Reaches (n + 13) s P := by
  obtain ⟨hl, rfl, rfl, rfl⟩ := hr
  obtain ⟨hlen, m, hd, ha, hm⟩ := hf
  have hi' := callsOnce_of_callsWait hi
  refine h.next (h.exec_wait hi hl (waitStep_loop_attempt hk)) rfl rfl rfl fun h => ?_
  refine h.reaches_received (callsReceive_of_callsOnce hi') rfl hconf hair hlen fun t h hst => ?_
  have ha := (hst.addressedToMe_eq m).trans ha
  have hd := (decodeFrame_trimFcs hlen).trans hd
  refine h.next (h.exec_once hi' rfl (onceStep_decode_notAddressed hd ha)) rfl rfl rfl fun h => ?_
  refine h.next (h.exec_wait hi rfl (waitStep_tally_again hm)) rfl rfl rfl fun h => ?_
  exact ht _ _ h ((hst.of_standing.to_standing ..).to_standing ..) ⟨rfl, rfl, rfl, rfl⟩

/-- As many attempts as frames that fail quietly, within the bound (rule R205). -/
theorem Controls.reaches_attempts {fs : List AirFrame} (h : Controls i .rxIdle s r) (hi : callsWait i = true)
    (hr : AtLoop seq ret k r) (hk : k + fs.length ≤ 30) (hconf : airConfigured s.radio = true)
    (hair : s.airIn = fs ++ rest) (hfs : ∀ f ∈ fs, failsQuietly s seq f)
    (ht : ∀ t r', Controls i .rxIdle t r' → Exchange s t [] fs → AtLoop seq ret (k + fs.length) r' → Reaches n t P) :
    Reaches (n + attemptSteps * fs.length) s P := by
  induction fs generalizing s r k with
  | nil => exact ht s r h (.refl s) hr
  | cons f fs ih =>
    rw [List.length_cons] at hk ht
    refine h.reaches_nextAttempt hi hr (by omega) hconf hair (hfs f (by simp)) fun t r' h hst hr' => ?_
    refine ih h hr' (by omega) (hst.conf.trans hconf) ?_ (fun g hg => hst.failsQuietly (hfs g (by simp [hg]))) ?_
    · exact List.append_cancel_left (hst.airIn.symm.trans hair)
    · exact fun u r'' h htu hr'' => ht u r'' h (hst.trans htu) (by rwa [Nat.add_right_comm] at hr'')

/-- A wait from RxIdle for bytes that fit a packet, acknowledged by the next frame (rules R204, R205, R214). -/
theorem Controls.reaches_acked (h : Controls i .rxIdle s r) (hi : callsWait i = true) (hl : r.line = .wait .check)
    (hk : r.frame.k = 0) (hlen : r.frame.waitBytes.length ≤ 253) (hconf : airConfigured s.radio = true)
    (hair : s.airIn = f :: rest) (hf : acknowledges f r.frame.waitSeq)
    (ht : ∀ t r', Controls i .rxIdle t r' →
      Exchange s t [.frame (BitVec.ofNat 8 (r.frame.waitBytes.length + 2)) r.frame.waitBytes] [f] →
      r'.line = r.frame.waitRet → r'.frame.acked = true → r'.frame.ops = r.frame.ops → Reaches n t P) :
    Reaches (n + 29) s P := by
  obtain ⟨h255, m, hd, hack, hseq, hdst⟩ := hf
  have hi' := callsOnce_of_callsWait hi
  refine h.next (h.exec_wait hi hl (waitStep_check_fits hlen)) rfl rfl rfl fun h => ?_
  refine h.reaches_transmitted (callsTransmit_of_callsOnce hi') rfl nofun hconf ?_ fun t h hst => ?_
  · exact (BitVec.toNat_ofNat ..).trans (Nat.mod_eq_of_lt (by omega))
  have hst := hst.of_standing
  refine h.next (h.exec_wait hi rfl (waitStep_loop_attempt (by simp [hk]))) rfl rfl rfl fun h => ?_
  refine h.reaches_received_of_ne (callsReceive_of_callsOnce hi') rfl nofun (hst.conf.trans hconf)
    (hst.airIn.symm.trans hair) h255 fun u h htu => ?_
  obtain ⟨notAddressed, -, -⟩ := addressMatch m u
  have hd := (decodeFrame_trimFcs h255).trans hd
  refine h.next (h.exec_once hi' rfl (onceStep_decode_notAddressed hd (notAddressed hdst))) rfl rfl rfl fun h => ?_
  have hmatch := ackMatches_eq_true.mpr ⟨m, rfl, hack, hseq⟩
  refine h.next (h.exec_wait hi rfl (waitStep_tally_acked hmatch)) rfl rfl rfl fun h => ?_
  exact ht _ _ h (hst.trans ((htu.of_standing.to_standing ..).to_standing ..)) rfl rfl rfl

/-! ## The lines of one command -/

/-- WRITE_EXPECT_ACK's line after the wait (rule R212). -/
theorem Controls.exec_finishWait (h : Controls (.writeExpectAck seq) q s r) (hl : r.line = .finish)
    (ht : finishWait seq r s = t) : exec (.writeExpectAck seq) s = .next t :=
  command_line ⟨h.halted, h.seqr, hl⟩ fun hl => by rw [hl, ht]

/-- After an acknowledged wait WRITE_EXPECT_ACK posts (rule R212). -/
theorem finishWait_acked (ha : r.frame.acked = true) : finishWait seq r s = ended .ok none s := if_pos ha

/-- After one that is not it logs the timeout, to raise it next (rule R212). -/
theorem finishWait_timeout (ha : r.frame.acked = false) :
    finishWait seq r s = { standing s r .raiseTimeout r.frame with sink := s.sink ++ [.msgAckTimeout seq] } :=
  if_neg (Bool.eq_false_iff.mp ha)

/-- A line of ASSOCIATE beside its first and last. -/
theorem Controls.exec_assoc {l : AssocLine} (h : Controls .associate q s r) (hl : r.line = .assoc l)
    (ht : assocStep l r s = t) : exec .associate s = .next t :=
  (exec_assocStep ⟨h.halted, h.seqr, hl⟩).trans (congrArg _ ht)

end

/-! ## The commands -/

/-- Settles O31: the host's write, the first line, TransmitBlocking, the last line. -/
theorem broadcastBeaconReachesTheAir : Obligations.BroadcastBeaconReachesTheAir := by
  intro s w q hr hc hi hd hrest hconf
  refine reaches_started hr hi hd hrest (.inl rfl) fun h => ?_
  obtain ⟨-, -, enter, -⟩ := radioCommandsEnter _ _ ⟨h.halted, h.seqr, rfl⟩ hc
  refine h.next enter rfl rfl rfl fun h => ?_
  refine h.reaches_transmitted rfl rfl nofun hconf rfl fun t h hst => ?_
  refine h.line (command_line ⟨h.halted, h.seqr, rfl⟩ fun _ => rfl) (.zero ?_)
  exact ⟨⟨h.halted, rfl⟩, hst.posted_eq _ _ _, h.rests, hst.airOut, hst.session, hst.airIn.symm, hst.sink⟩

/-- Settles O45: the host's write, the first line, ReceiveBlocking, the decode line, TransmitBlocking with the
acknowledgement, the dispatch line and the last line. -/
theorem receiveOnceAcknowledges : Obligations.ReceiveOnceAcknowledges := by
  intro s w q f rest m hr hc hi hd hrest hconf hair hlen hm ha hack hdata
  refine reaches_started hr hi hd hrest (.inr (.inr rfl)) fun h => ?_
  obtain ⟨-, -, -, enter, -⟩ := radioCommandsEnter _ _ ⟨h.halted, h.seqr, rfl⟩ hc
  refine h.next enter rfl rfl rfl fun h => ?_
  refine h.reaches_received rfl rfl hconf hair hlen fun t h hst => ?_
  have hm := (decodeFrame_trimFcs hlen).trans hm
  have ha := (hst.addressedToMe_eq m).trans ha
  refine h.next (h.exec_once rfl rfl (onceStep_decode_ack hm ha hack)) rfl rfl rfl fun h => ?_
  refine h.reaches_transmitted rfl rfl nofun (hst.conf.trans hconf) rfl fun u h htu => ?_
  have hsu := hst.trans htu.of_standing
  refine h.next (h.exec_once rfl rfl (onceStep_dispatch_some rfl)) rfl rfl rfl fun h => ?_
  refine h.line (command_line ⟨h.halted, h.seqr, if_neg hdata⟩ fun hl => by rw [hl]; rfl) (.zero ?_)
  exact ⟨⟨h.halted, rfl⟩, congrArg (Session.afterDispatch m) hsu.session, rfl, hsu.airOut,
    (List.cons.inj (hsu.airIn.symm.trans hair)).2, hsu.sink, hsu.hostQ, h.rests⟩

/-- Settles O47: thirty attempts, then the loop's test, the line that logs the timeout and the line that raises it. -/
theorem waitTimesOutAfterThirtyAttempts : Obligations.WaitTimesOutAfterThirtyAttempts := by
  rintro s r seq fs rest ⟨hh, hs, hl⟩ hk hret hseq hd hturns hrest hconf hair hlen hfs
  have h : Controls (.writeExpectAck seq) .rxIdle s r := ⟨hh, hs, hd, hturns, hrest, .inr (.inr rfl)⟩
  rw [Nat.add_comm, Nat.mul_comm, ← hlen]
  refine h.reaches_attempts rfl ⟨hl, hseq, hret, hk⟩ (by omega) hconf hair hfs fun t r' h hst hr' => ?_
  obtain ⟨hl, -, hret, hk⟩ := hr'
  refine h.next (h.exec_wait rfl hl (waitStep_loop_timeout (by omega))) rfl rfl rfl fun h => ?_
  refine h.next (h.exec_finishWait hret (finishWait_timeout rfl)) rfl rfl rfl fun h => ?_
  refine h.line (command_line ⟨h.halted, h.seqr, rfl⟩ fun _ => rfl) (.zero ?_)
  exact ⟨⟨h.halted, rfl⟩, hst.posted_eq _ _ _, (List.append_cancel_left (hair.symm.trans hst.airIn)).symm,
    hst.airOut.trans (List.append_nil _), congrArg (· ++ _) hst.sink, hst.session⟩

/-- Settles O48: the host's write, the first line, the wait and the last line. -/
theorem writeExpectAckCompletes : Obligations.WriteExpectAckCompletes := by
  intro s w q seq f rest hr hc hi hd hrest hconf hlen hair hf
  refine reaches_started hr hi hd hrest (.inr (.inr rfl)) fun h => ?_
  obtain ⟨-, -, -, -, enter, -⟩ := radioCommandsEnter _ _ ⟨h.halted, h.seqr, rfl⟩ hc
  refine h.next (enter seq) rfl rfl rfl fun h => ?_
  refine h.reaches_acked rfl rfl rfl hlen hconf hair hf fun t r' h hst hl hacked _ => ?_
  refine h.line (h.exec_finishWait hl (finishWait_acked hacked)) (.zero ?_)
  exact ⟨⟨h.halted, rfl⟩, hst.posted_eq _ _ _, hst.airOut, (List.cons.inj (hst.airIn.symm.trans hair)).2, hst.session,
    hst.sink, hst.hostQ, h.rests⟩

/-- Settles O50: the host's write, the first line, then twice a request, its wait and the lines that follow. -/
theorem associateCompletes : Obligations.AssociateCompletes := by
  intro s w q f g rest hr hc hi hd hrest hconf hair hf hg
  refine reaches_started hr hi hd hrest (.inr (.inr rfl)) fun h => ?_
  obtain ⟨-, -, -, -, -, enter⟩ := radioCommandsEnter _ _ ⟨h.halted, h.seqr, rfl⟩ hc
  refine h.next enter rfl rfl rfl fun h => ?_
  refine h.next (h.exec_assoc rfl assocStep_request) rfl rfl rfl fun h => ?_
  refine h.reaches_acked rfl rfl rfl (by simp) hconf hair hf fun t r h hst hl hacked hops => ?_
  have hst := hst.of_standing.of_standing
  refine h.next (h.exec_assoc hl (assocStep_afterRequest_acked hacked)) rfl rfl rfl fun h => ?_
  refine h.next (h.exec_assoc rfl rfl) rfl rfl rfl fun h => ?_
  refine h.next (h.exec_assoc rfl rfl) rfl rfl rfl fun h => ?_
  refine h.next (h.exec_assoc rfl assocStep_dataRequest) rfl rfl rfl fun h => ?_
  have hair := List.append_cancel_left (hst.airIn.symm.trans hair)
  refine h.reaches_acked rfl rfl rfl (by simp) (hst.conf.trans hconf) hair hg
    fun u r' h htu hl hacked _ => ?_
  refine h.next (h.exec_assoc hl (assocStep_afterDataRequest_acked hacked)) rfl rfl rfl fun h => ?_
  refine h.next (h.exec_assoc rfl rfl) rfl rfl rfl fun h => ?_
  refine h.line (command_line ⟨h.halted, h.seqr, rfl⟩ fun _ => rfl) (.zero ?_)
  refine ⟨⟨h.halted, rfl⟩, ?session, rfl, ?airOut, ?sink, (List.cons.inj (htu.airIn.symm.trans hair)).2, h.rests⟩
  case session =>
    have h₁ : u.session = { t.session with extActive := true, handshake := .assocAcked } := htu.session
    have h₂ : t.session = s.session := hst.session
    rw [h₂] at h₁
    exact congrArg (fun x : Session => { x with handshake := .dataReqAcked }) h₁
  case airOut =>
    have h₁ : t.airOut = s.airOut ++ [.frame 21 (assocRequestWire s.host s.ownExtended)] := hst.airOut
    have h₂ : u.airOut = t.airOut ++ [.frame 20 (dataRequestWire r.frame.ops t.ownExtended)] := htu.airOut
    rw [h₁, hops, hst.ownExtended, List.append_assoc] at h₂
    exact h₂
  case sink =>
    have h₁ : u.sink = t.sink ++ [.msgAssocAcked] := htu.sink
    have h₂ : t.sink = s.sink := hst.sink
    rw [h₂] at h₁
    exact (congrArg (· ++ _) h₁).trans (List.append_assoc ..)

end Sys2Proof.Machine
end

section
/-! PROOFS. The NWK codec's numbers: each field of the frame control from its bits, and where in a packet that parses
the source route, the payload and the MIC stand. -/

namespace Sys2Proof.Machine

/-! ## The frame control -/

/-- Each NWK frame type's code, the reserved one's among them (rules R111, R231). -/
theorem nwkFrameTypeOf_eq_iff : ∀ t : BitVec 2,
    (nwkFrameTypeOf t = .nwkData ↔ t = 0) ∧ (nwkFrameTypeOf t = .nwkCommand ↔ t = 1) ∧
    (nwkFrameTypeOf t = .nwkReserved ↔ t = 2) ∧ (nwkFrameTypeOf t = .interPan ↔ t = 3) := by
  decide

/-- Each discover-route value's code, the two reserved ones' among them (rules R111, R231). -/
theorem discoverRouteOf_eq_iff : ∀ d : BitVec 2,
    (discoverRouteOf d = .suppress ↔ d = 0) ∧ (discoverRouteOf d = .enable ↔ d = 1) ∧
    (discoverRouteOf d = .reserved2 ↔ d = 2) ∧ (discoverRouteOf d = .reserved3 ↔ d = 3) := by
  decide

/-- Frame controls that agree on bits 13:0 read the same (rule R231). -/
theorem parseFcf_congr {w x : Half} (h : w.extractLsb' 0 14 = x.extractLsb' 0 14) : parseFcf w = parseFcf x := by
  have hfield : ∀ k n, k + n ≤ 14 → w.extractLsb' k n = x.extractLsb' k n := fun k n hn =>
    extractLsb'_congr h (Nat.zero_le k) (by omega)
  have hbit : ∀ k < 14, w.getLsbD k = x.getLsbD k := fun k hk => getLsbD_congr h (Nat.zero_le k) (by omega)
  simp only [parseFcf, hfield, hbit, Nat.reduceAdd, Nat.reduceLeDiff, Nat.reduceLT]

/-- Settles O38: the flags and the version are the word's bits as they stand, the two codes are read by
`nwkFrameTypeOf_eq_iff` and `discoverRouteOf_eq_iff`, and `parseFcf_congr`. -/
theorem nwkFrameControlFields : Obligations.NwkFrameControlFields := by
  refine ⟨fun w => ⟨rfl, rfl, rfl, rfl, rfl, rfl, rfl, ?_⟩, fun _ _ => parseFcf_congr⟩
  obtain ⟨hdata, hcommand, hreserved, hinter⟩ := nwkFrameTypeOf_eq_iff (w.extractLsb' 0 2)
  exact ⟨hdata, hcommand, hreserved, hinter, discoverRouteOf_eq_iff (w.extractLsb' 6 2)⟩

/-! ## The packet's lengths -/

/-- A packet's header on the wire: the source route, where there is one, begins at the route index (rules R112,
R239(e)). -/
theorem nwkHeaderWire_sourceRoute (fc dst src : Half) (radius seq : Byte) (xdst xsrc : Dword) (mc idx : Byte)
    (relays : Bytes) :
    ∃ front : Bytes, front.length = nwkRouteIndex (parseFcf fc) ∧
      nwkHeaderWire fc dst src radius seq xdst xsrc mc idx relays =
        front ++ (if fc.getLsbD 10 then BitVec.ofNat 8 relays.length :: idx :: relays else []) := by
  refine ⟨le16 fc ++ le16 dst ++ le16 src ++ [radius, seq] ++ (if fc.getLsbD 11 then le64 xdst else []) ++
    (if fc.getLsbD 12 then le64 xsrc else []) ++ (if fc.getLsbD 8 then [mc] else []), ?_, ?_⟩
  · simp only [List.length_append, apply_ite List.length, length_le16, length_le64, List.length_cons, List.length_nil,
      Nat.reduceAdd]
    rfl
  · simp only [nwkHeaderWire, List.append_assoc]

/-- Where the payload of a tail that parses begins, the security header's length after the cursor, and that payload and
MIC fill the packet from there on (rules R113, R237). -/
theorem parseTail_lengths {secured : Bool} {B : Bytes} {cursor : Nat} {t : Option SecurityHeader × Bytes}
    (hcursor : cursor ≤ B.length) (h : parseTail secured B cursor = some t) :
    ∃ nonce : Bool, (∀ x, t.1 = some x → nonce = x.extendedNonce) ∧
      let start := cursor + (if secured then secHdrLength nonce else 0)
      B.length = start + t.2.length + (if secured then 4 else 0) ∧ t.2 = (B.drop start).take t.2.length := by
  cases secured with
  | false =>
    cases h
    refine ⟨false, nofun, ?_, List.take_length.symm⟩
    change B.length = cursor + (B.drop cursor).length
    rw [List.length_drop]
    omega
  | true =>
    obtain ⟨x, hx, h⟩ := Option.bind_eq_some_iff.mp h
    obtain ⟨c, fcnt, xsrc, ksn, -, -, rfl⟩ := layout_of_parseSecHdr hx
    simp only [length_secHeaderWire, show Params.spec.micLen = 4 from rfl] at h
    split at h
    case isTrue => cases h
    case isFalse hroom =>
      cases h
      refine ⟨extendedNonceOf c, fun _ hx => by cases hx; rfl, ?_, ?_⟩
      · simp only [List.length_take, List.length_drop, if_true]
        omega
      · exact (List.take_eq_take_iff.mpr (by simp)).symm

/-- Settles O42: `nwkHeaderWire_sourceRoute` for the header itself, `parseTail_lengths` for what follows it. -/
theorem nwkLengthsAddUp : Obligations.NwkLengthsAddUp := by
  intro B f hf
  obtain ⟨fc, dst, src, radius, seq, xdst, xsrc, mc, idx, relays, rest, t, hn, hB, ht, rfl⟩ :=
    layout_of_parsePacket hf
  obtain ⟨front, hfront, hwire⟩ := nwkHeaderWire_sourceRoute fc dst src radius seq xdst xsrc mc idx relays
  have hcursor : (nwkHeaderWire fc dst src radius seq xdst xsrc mc idx relays).length ≤ B.length := by
    rw [hB, List.length_append]
    omega
  obtain ⟨nonce, hnonce, hlen, hpayload⟩ := parseTail_lengths hcursor ht
  have hheader : nwkHeaderLength (parseFcf fc) relays.length nonce =
      (nwkHeaderWire fc dst src radius seq xdst xsrc mc idx relays).length +
        (if fc.getLsbD 9 then secHdrLength nonce else 0) := by
    rw [hwire, List.length_append, hfront, apply_ite List.length, List.length_cons, List.length_cons,
      Nat.add_assoc relays.length, Nat.add_comm relays.length]
    rfl
  rw [← hheader] at hlen hpayload
  refine ⟨relays.length, nonce, fun hroute => ⟨BitVec.ofNat 8 relays.length, ?_, ?_⟩, hnonce, hlen, hpayload⟩
  · rw [hB, hwire]
    change fc.getLsbD 10 = true at hroute
    simp [nwkRead, ← hfront, hroute]
  · rw [BitVec.toNat_ofNat]
    omega

end Sys2Proof.Machine
end

section
/-! PROOFS. The exceptions: which commands test `constructed`, and what RES says after every step. -/

namespace Sys2Proof.Machine

/-! ## The construction test -/

/-- The first line of a command that tests `constructed`, on a block that is not constructed (rule R258). -/
theorem command_entry_unconstructed {s : State} {r : Run} {line : Run → Out} {rest : Out} (hr : runs s r .entry)
    (hc : s.constructed = false) (hline : r.line = .entry → line r = needConstructed s rest) :
    command s line = .next (stopped .notConstructed s) :=
  command_line hr fun hl => (hline hl).trans (needConstructed_false hc)

/-- Each of the commands that test `constructed` does so at its first line (rule R258). -/
theorem exec_entry_unconstructed {i : Instr} {s : State} {r : Run} (hi : testsConstructed i = true)
    (hr : runs s r .entry) (hc : s.constructed = false) : exec i s = .next (stopped .notConstructed s) := by
  cases i with
  | configure | transmit | receive | broadcastBeacon | receiveOnce | writeExpectAck | associate =>
    exact command_entry_unconstructed hr hc fun hl => by rw [hl]
  | _ => cases hi

/-- A parse ends its command with a status and a value that depend on what it read alone (rule R252). -/
theorem postParsed_ended (v : Option Value) : ∃ e w, ∀ s, postParsed v s = ended e w s := by
  cases v with
  | none => exact ⟨_, _, fun _ => rfl⟩
  | some x => exact ⟨_, _, fun _ => rfl⟩

/-- A codec command ends at its one line, with a status and a value that depend on the command and its sampled
operands alone, not on the state it runs in (rules R14, R258). -/
theorem exec_codec {i : Instr} (hi : testsConstructed i = false) (hne : i ≠ .construct) (r : Run) :
    ∃ e v, ∀ s, runs s r .entry → exec i s = .next (ended e v s) := by
  have parsing : ∀ parse : Run → Option Value, ∃ e v, ∀ s, runs s r .entry →
      oneStep s (fun q => postParsed (parse q) s) = .next (ended e v s) := fun parse => by
    obtain ⟨e, v, hend⟩ := postParsed_ended (parse r)
    exact ⟨e, v, fun s ⟨hh, hs, hl⟩ => by rw [oneStep_entry hh hs hl, hend]⟩
  cases i with
  | encBeaconReq | encAssocReq | encDataReq | encAck => exact ⟨_, _, fun s hr => oneStep_postFrame hr _⟩
  | nwkParseFcf => exact ⟨_, _, fun s ⟨hh, hs, hl⟩ => oneStep_entry hh hs hl⟩
  | macDecode | nwkParsePacket | nwkParseSechdr => exact parsing _
  | construct => exact absurd rfl hne
  | _ => cases hi

/-- Settles O26: the test is at the first line, a codec command's end is `exec_codec`'s whatever `constructed` is, and
CONSTRUCT has a test of its own. -/
theorem constructionTests : Obligations.ConstructionTests := by
  refine ⟨fun i s r => exec_entry_unconstructed, fun i s r hi hne hr => ?codec, fun s r hr hc => ?construct⟩
  case codec =>
    obtain ⟨e, v, hend⟩ := exec_codec hi hne r
    exact ⟨ended e v s, hend s hr, hr.1, rfl, fun b => hend { s with constructed := b } hr⟩
  case construct => exact command_line hr fun hl => by rw [hl]; exact if_pos hc

/-! ## RES -/

/-- The block has not halted and RES says BUSY (rules R250, R255). -/
structure SaysBusy (s : State) : Prop where
  halted : s.halted = none
  res : ∃ snap, s.res = some { status := .busy, halt := none, value := none, session := snap }

/-- RES says BUSY while a command runs. -/
theorem ResOk.saysBusy {s : State} {r : Run} (h : ResOk s) (hh : s.halted = none) (hs : s.seqr = .running r) :
    SaysBusy s := by
  simp only [ResOk, hh, hs] at h
  exact ⟨hh, h⟩

/-- A halt writes its reason to RES (rule R257). -/
theorem resOk_halt (x : HaltReason) (s : State) : ResOk (halt x s) := rfl

/-- A command's end writes its status to RES (rule R255). -/
theorem resOk_raiseError {e : Status} {s : State} (hh : s.halted = none) (v : Option Value) (hbusy : e ≠ .busy)
    (hhalted : e ≠ .halted) : ResOk (raiseError e v s) := by
  simp only [ResOk, raiseError_halted, hh, raiseError_seqr, raiseError_res]
  rintro _ ⟨⟩
  exact ⟨rfl, hbusy, hhalted⟩

/-- A command that ends well is one that ends with OK. -/
theorem resOk_post {s : State} (hh : s.halted = none) (v : Option Value) : ResOk (post v s) :=
  resOk_raiseError (e := .ok) hh v (by decide) (by decide)

/-- A step that leaves a command running, and neither halts the block nor writes RES, leaves RES at BUSY. -/
theorem SaysBusy.resOk_of_running {s t : State} {r : Run} (h : SaysBusy s) (hs : t.seqr = .running r)
    (hhalted : t.halted = s.halted) (hres : t.res = s.res) : ResOk t := by
  simpa only [ResOk, hs, hhalted, h.halted, hres] using h.res

/-- A command's start writes BUSY to RES (rules R23, R255). -/
theorem resOk_startCommand {s : State} (hh : s.halted = none) : ResOk (startCommand s) := by
  have hb : SaysBusy (startCommand s) := ⟨hh, _, rfl⟩
  exact hb.resOk_of_running rfl rfl rfl

/-- Only the halt, RES, the sequencer and the session registers tell whether RES is true. -/
theorem ResOk.congr {s t : State} (h : ResOk s) (hhalted : t.halted = s.halted) (hres : t.res = s.res)
    (hseqr : t.seqr = s.seqr) (hsession : t.session = s.session) : ResOk t := by
  simpa only [ResOk, hhalted, hres, hseqr, hsession] using h

section
variable {s : State} (hb : SaysBusy s)
include hb

/-- The lines of CONSTRUCT leave RES at BUSY. -/
theorem constructStep_resOk (l : ConstructLine) (r : Run) : ResOk (constructStep l r s) := by
  cases l <;> exact hb.resOk_of_running rfl rfl rfl

/-- The lines of CONFIGURE leave RES at BUSY, or end the command with RANGE_ERROR. -/
theorem configureStep_resOk (f : Nat) (l : ConfigureLine) (r : Run) : ResOk (configureStep f l r s) := by
  cases l with
  | rangeTest =>
    simp only [configureStep]
    split
    · exact hb.resOk_of_running rfl rfl rfl
    · exact resOk_raiseError hb.halted _ (by decide) (by decide)
  | _ => exact hb.resOk_of_running rfl rfl rfl

/-- The lines of ASSOCIATE leave RES at BUSY, or end the command with PROTOCOL_TIMEOUT. -/
theorem assocStep_resOk (l : AssocLine) (r : Run) : ResOk (assocStep l r s) := by
  cases l with
  | afterRequest | afterDataRequest => simp only [assocStep]; split <;> exact hb.resOk_of_running rfl rfl rfl
  | abort | fail => exact resOk_raiseError hb.halted _ (by decide) (by decide)
  | _ => exact hb.resOk_of_running rfl rfl rfl

/-- The dispatch line leaves RES at BUSY. -/
theorem onceDispatch_resOk (r : Run) : ResOk (onceDispatch r s) := by
  unfold onceDispatch dispatch
  (repeat' split) <;> exact hb.resOk_of_running rfl rfl rfl

/-- A running command's step ends with RES true: it halts, ends the command, or goes on with RES at BUSY. -/
theorem exec_resOk {i : Instr} {t : State} {r : Run} (he : exec i s = .next t) (hs : s.seqr = .running r) :
    ResOk t := by
  have halts : ∀ x, ResOk (halt x s) := fun x => resOk_halt x s
  have moved : ∀ l f u, u.halted = s.halted → u.res = s.res → ResOk (gotoWith r l f u) :=
    fun l f u hhalted hres => hb.resOk_of_running rfl hhalted hres
  have went : ∀ l u, u.halted = s.halted → u.res = s.res → ResOk (goto r l u) := fun l u => moved l r.frame u
  exact running_rec hb.halted hs he ResOk halts (resOk_post hb.halted) (fun _ v => resOk_raiseError hb.halted v)
    (fun l f _ => moved l f s rfl rfl) (fun l _ => went l _ rfl rfl)
    (fun _ _ ht => tx_rec ht ResOk halts (fun l f _ => moved l f s rfl rfl) (fun _ => went _ _ rfl rfl)
      (fun _ _ => went _ _ rfl rfl) (went _ _ rfl rfl) (went _ _ rfl rfl) (went _ _ rfl rfl))
    (fun _ _ ht => rx_rec ht ResOk (fun l f _ => moved l f s rfl rfl) (went _ _ rfl rfl) (went _ _ rfl rfl)
      (went _ _ rfl rfl))
    (fun l _ => constructStep_resOk hb l r) (fun f l _ => configureStep_resOk hb f l r)
    (fun l _ => assocStep_resOk hb l r) (fun _ => onceDispatch_resOk hb r)

end

/-- Settles O54: a start writes BUSY, the controller's lines are `exec_resOk`, every halt writes its reason, and the
host's other writes and the radio touch nothing that RES speaks of. -/
theorem resultRecordStaysTrue : Obligations.ResultRecordStaysTrue := by
  refine ⟨⟨rfl, rfl, rfl, rfl, rfl, rfl⟩, ⟨rfl, rfl, rfl, rfl⟩, fun s t h hok => ?_⟩
  refine step_rec h ResOk (fun _ _ => hok) (fun _ _ _ => hok) (fun _ _ _ _ hh _ _ => resOk_startCommand hh)
    (fun _ _ _ _ _ => resOk_halt _ _) (fun ts r i hh hs _ he => ?line) (fun _ _ _ _ _ _ => resOk_halt _ _)
    (fun ts m => ?radio)
  case line =>
    have hturn : ResOk { s with turns := ts } := hok
    exact exec_resOk (hturn.saysBusy hh hs) he hs
  case radio =>
    obtain ⟨-, hres, hseqr, hhalted, -, -, hsession, -⟩ := radioStep_frame m { s with turns := ts }
    exact hok.congr hhalted hres hseqr hsession

end Sys2Proof.Machine
end

section
/-! PROOFS. Reset and the hazards: what wakes an Idle block, and the poll that a pending START does not hold back. -/

namespace Sys2Proof.Machine

/-! ## The Idle block -/

/-- The next turn is taken in the same state, but for the list of turns (log 1). -/
theorem nextTurn_state (s : State) : ∃ ts, (nextTurn s).2 = { s with turns := ts } := by
  unfold nextTurn
  split <;> exact ⟨_, rfl⟩

/-- The controller's turn on an Idle block does nothing (rule R281; log 27). -/
theorem controllerStep_idle {s : State} (hs : s.seqr = .idle) : controllerStep s = .next s := by
  cases hh : s.halted <;> simp only [controllerStep, hh, hs]

/-- A host's step that writes no command word changes the host's registers and its queue alone (rules R23, R81). -/
theorem hostStep_of_not_cmd {s t : State} (h : hostStep s = .next t) (hq : ¬ ∃ w q, s.hostQ = .cmd w :: q) :
    ∃ q regs, t = { s with hostQ := q, host := regs } := by
  obtain rfl | ⟨v, q, hv, rfl | rfl | ⟨-, -, ⟨w, -, rfl, -⟩ | ⟨w, -, rfl, -⟩⟩⟩ := hostStep_cases h
  · exact ⟨_, _, rfl⟩
  · exact ⟨_, _, rfl⟩
  · exact ⟨_, _, rfl⟩
  · exact absurd ⟨w, q, hv⟩ hq
  · exact absurd ⟨w, q, hv⟩ hq

/-- Settles O10: agent by agent; the host's write of another register, the controller's idle turn and the radio's
transitions leave what the block holds. -/
theorem idleBlockWaits : Obligations.IdleBlockWaits := by
  refine ⟨rfl, rfl, fun s ts hs ht => (step_listed ht).trans (controllerStep_idle hs), fun s t h hs hcmd => ?_⟩
  obtain ⟨ts, hstate⟩ := nextTurn_state s
  rw [step, hstate] at h
  cases hturn : (nextTurn s).1 with rw [hturn] at h
  | host =>
    obtain ⟨q, regs, rfl⟩ := hostStep_of_not_cmd h fun hq => hcmd ⟨hturn, hq⟩
    exact ⟨hs, rfl, rfl, rfl, rfl, rfl, rfl⟩
  | controller =>
    cases (controllerStep_idle (s := { s with turns := ts }) hs).symm.trans h
    exact ⟨hs, rfl, rfl, rfl, rfl, rfl, rfl⟩
  | radio m =>
    cases h
    obtain ⟨-, hres, hseqr, hhalted, hcon, hown, hses, -, -, hsink, -⟩ := radioStep_frame m { s with turns := ts }
    exact ⟨hseqr.trans hs, hres, hhalted, hcon, hown, hses, hsink⟩

/-! ## The early exit -/

/-- Settles O32: the poll's line reads the radio's state and not what is pending, and it moves on in the Idle state. -/
theorem startEarlyExit : Obligations.StartEarlyExit := by
  refine fun i s r hstart => ⟨fun hi hr hidle => ?_, fun hi hr hidle => ?_⟩
  · obtain ⟨-, -, -, -, -, -, -, -, hpoll⟩ := transmitBlockingLines i s r hi
    exact ⟨_, (hpoll hr).trans (congrArg _ (if_pos hidle)), rfl, hstart, rfl⟩
  · obtain ⟨-, -, -, -, -, hpoll, -⟩ := receiveBlockingLines i s r hi
    exact ⟨_, (hpoll hr).trans (congrArg _ (if_pos hidle)), rfl, hstart, rfl⟩

end Sys2Proof.Machine
end
